-- ==== Sys2Proof/Word.lean ====
section
/-! DEFINITION. The bit-vector types of the core (00_scope.md section 6: every value is an unsigned bit vector of a stated width). -/

namespace Sys2Proof

/-- A byte: `CRC`, a cell of `TX` or `RX`, the operand of `CRCB`. -/
abbrev Byte := BitVec 8

/-- A 16-bit value: a command opcode, a decoded word `W[i]`, the status register `ST`. -/
abbrev Half := BitVec 16

/-- A 32-bit value: `PID`, `EXPECTED_PRODUCT_ID`, the `data` of a response. -/
abbrev Word := BitVec 32

/-- The 24-bit request word (30_encoding.md R46). -/
abbrev ReqWord := BitVec 24

end Sys2Proof
end

