-- ==== Sys2Proof/Config.lean ====
section
/-! DEFINITION. The constants of 00_scope.md R3, the open parameters of R4, and the free values of the model. -/

namespace Sys2Proof

/-- The transport's answer to `SOPEN` (00_scope.md R6, 43_session.md R81). -/
inductive AcquireAnswer where
  | acquired
  | failed
deriving DecidableEq, Repr, Inhabited

/-- The transport's answer to `XFER`: failure, or exactly 18 bytes (00_scope.md R6, 42_parser.md R71). -/
inductive TransferAnswer where
  | fail
  | ok (bytes : Vector Byte 18)
deriving DecidableEq, Repr, Inhabited

/-- The open parameters of 00_scope.md R4 that the core or its host use. A model takes them as arguments:
State carries one `Params`, and no instruction changes it (10_state.md R24; log entry 1). -/
structure Params where
  cmdGetProductId   : Half
  expectedProductId : Word
deriving DecidableEq, Repr

namespace Config

/-- `CRC_INIT` (00_scope.md R3). -/
def crcInit : Byte := 0xFF

/-- `CRC_POLY` (00_scope.md R3). -/
def crcPoly : Byte := 0x31

/-- `CRC_ITER` (00_scope.md R3). -/
def crcIter : Nat := 8

/-- `CMD_BYTES` (00_scope.md R3): the size of the `TX` space. -/
def cmdBytes : Nat := 2

/-- `WORD_PAYLOAD` (00_scope.md R3). -/
def wordPayload : Nat := 2

/-- `WORD_STRIDE` (00_scope.md R3). -/
def wordStride : Nat := 3

/-- `RESP_WORDS` (00_scope.md R3). -/
def respWords : Nat := 6

/-- `RESP_LEN` (00_scope.md R3): the size of the `RX` space. -/
def respLen : Nat := 18

/-- `N_DECODED` (00_scope.md R3): words 0 and 1 are validated and decoded. -/
def nDecoded : Nat := 2

/-- What an address of `TX` or `RX` that the memory does not list reads as.
DESIGN CHOICE (log entry 6), unsafe: 10_state.md R25 gives the buffers no contents at reset. -/
def unwrittenByte : Byte := 0x00

/-- `CMD_GET_PRODUCT_ID` (00_scope.md R4, 92_eei_decisions.md P1): named by the spec, given no number. -/
opaque cmdGetProductId : Half

/-- `EXPECTED_PRODUCT_ID` (00_scope.md R4, 92_eei_decisions.md P2): named by the spec, given no number. -/
opaque expectedProductId : Word

/-- Free value: eighteen `draw_8()` at once, the unspecified bytes of `RX` (42_parser.md R71, 10_state.md R25;
log entries 7 and 13). -/
opaque freeResponse : Nat → Vector Byte 18

/-- Free value: two `draw_8()` at once, the unspecified bytes of `TX` after a reset (10_state.md R25; log entry 13). -/
opaque freeFrame : Nat → Vector Byte 2

/-- Free value: the unspecified contents of `W[i]` after a reset (10_state.md R25; log entry 13). -/
opaque freeDecoded : Nat → Nat → Half

/-- Free value: the transport's answer to an `SOPEN` for which State places none (00_scope.md R6; log entry 3). -/
opaque freeAcquire : Nat → AcquireAnswer

/-- Free value: the transport's answer to an `XFER` for which State places none (00_scope.md R6; log entry 3). -/
opaque freeTransfer : Nat → TransferAnswer

end Config
end Sys2Proof
end

