-- ==== Sys2Proof/Machine/Crc8.lean ====
section
/-! DEFINITION. The CRC-8 function (40_crc8.md R57 to R61). -/

namespace Sys2Proof.Machine

/-- One shift iteration: a plain left shift, and the polynomial XORed in when the bit shifted out was 1
(40_crc8.md R57, R59; 90_conflicts.md C1). -/
def crcShift (a : Byte) : Byte :=
  if a.getLsbD 7 then (a <<< 1) ^^^ Config.crcPoly else a <<< 1

/-- `n` shift iterations. -/
def crcShifts : Nat → Byte → Byte
  | 0, a => a
  | n + 1, a => crcShifts n (crcShift a)

/-- `crc_step(c, b)`: XOR the byte in, then eight shift iterations (40_crc8.md R57). -/
def crcStep (c b : Byte) : Byte := crcShifts Config.crcIter (c ^^^ b)

/-- `crc8(s)`: the fold of `crc_step` over the bytes in order from 0xFF, total on every sequence
(40_crc8.md R58, R60). -/
def crc8 (s : List Byte) : Byte := s.foldl crcStep Config.crcInit

end Sys2Proof.Machine
end

