-- ==== Sys2Proof/Syntax.lean ====
section
/-! DEFINITION. The fifteen operations (30_encoding.md R47), one constructor per row of opcode_table.json. -/

namespace Sys2Proof

/-- An operation with its operand at the width of its field of `arg` (30_encoding.md R48).
The docstrings name the rule that gives the meaning. -/
inductive Instr where
  /-- `RDST`, 43_session.md R84. -/
  | rdst
  /-- `CRCINIT`, 40_crc8.md R63. -/
  | crcinit
  /-- `CRCB b`, 40_crc8.md R64. -/
  | crcb (b : BitVec 8)
  /-- `CRCRD`, 40_crc8.md R65. -/
  | crcrd
  /-- `FRAME c`, 41_framer.md R67. -/
  | frame (c : BitVec 16)
  /-- `RDTX i`, 41_framer.md R69. -/
  | rdtx (i : BitVec 1)
  /-- `XFER`, 42_parser.md R71. -/
  | xfer
  /-- `RDRX j`, 42_parser.md R72. -/
  | rdrx (j : BitVec 5)
  /-- `WCHK k`, 42_parser.md R74. -/
  | wchk (k : BitVec 3)
  /-- `PARSE`, 42_parser.md R75. -/
  | parse
  /-- `RDW i`, 42_parser.md R79. -/
  | rdw (i : BitVec 1)
  /-- `RDPID`, 42_parser.md R80. -/
  | rdpid
  /-- `IDCMP`, 43_session.md R83. -/
  | idcmp
  /-- `SOPEN`, 43_session.md R81. -/
  | sopen
  /-- `SCLOSE`, 43_session.md R82. -/
  | sclose
deriving DecidableEq, Repr

end Sys2Proof
end

