-- ==== Sys2Proof/WellFormed.lean ====
section
/-! DEFINITION. The operand ranges that a field's width alone does not give (30_encoding.md R48). -/

namespace Sys2Proof

/-- The operand is in its legal range (30_encoding.md R48): `j` in 0..17 for `RDRX`, `k` in 0..5 for `WCHK`;
every other operand's range is the whole of its field. -/
def Instr.wellFormed : Instr → Bool
  | .rdst => true
  | .crcinit => true
  | .crcb _ => true
  | .crcrd => true
  | .frame _ => true
  | .rdtx _ => true
  | .xfer => true
  | .rdrx j => decide (j.toNat ≤ 17)
  | .wchk k => decide (k.toNat ≤ 5)
  | .parse => true
  | .rdw _ => true
  | .rdpid => true
  | .idcmp => true
  | .sopen => true
  | .sclose => true

end Sys2Proof
end

