-- ==== Sys2Proof/Decode.lean ====
section
/-! DEFINITION. Decoder and encoder of the 24-bit request word (30_encoding.md R46 to R51, R55). -/

namespace Sys2Proof

/-- Why a request word is illegal (30_encoding.md R50, one constructor per condition). -/
inductive Illegal where
  /-- `op = 0xF`. -/
  | reservedSelector
  /-- `z != 0`. -/
  | nonzeroZ
  /-- A bit of `arg` that R48 says must be 0 is 1. -/
  | strayArgBits
  /-- `op = RDRX` and `j` is 18..31. -/
  | rxIndexOutOfRange
  /-- `op = WCHK` and `k` is 6 or 7. -/
  | wordIndexOutOfRange
deriving DecidableEq, Repr

/-- `op`, bits 23:20 (30_encoding.md R46). -/
def ReqWord.op (w : ReqWord) : BitVec 4 := w.extractLsb' 20 4

/-- `z`, bits 19:16 (30_encoding.md R46). -/
def ReqWord.z (w : ReqWord) : BitVec 4 := w.extractLsb' 16 4

/-- `arg`, bits 15:0 (30_encoding.md R46). -/
def ReqWord.arg (w : ReqWord) : BitVec 16 := w.extractLsb' 0 16

/-- An operation without operand: all of `arg` must be 0 (30_encoding.md R48). -/
def decodeBare (arg : BitVec 16) (i : Instr) : Except Illegal Instr :=
  if arg = 0 then .ok i else .error .strayArgBits

/-- An operand in the low `n` bits of `arg`, the bits above it 0 (30_encoding.md R48). -/
def decodeLow (n : Nat) (arg : BitVec 16) (f : BitVec n → Instr) : Except Illegal Instr :=
  if arg >>> n = 0 then .ok (f (arg.setWidth n)) else .error .strayArgBits

/-- An instruction whose operand range is narrower than its field, refused with its own reason outside it. -/
def checkRange (why : Illegal) : Except Illegal Instr → Except Illegal Instr
  | .ok i => if i.wellFormed then .ok i else .error why
  | .error e => .error e

/-- The decoder, total on 24-bit words (30_encoding.md R51). -/
def decode (w : ReqWord) : Except Illegal Instr :=
  let arg := ReqWord.arg w
  if ReqWord.z w ≠ 0 then .error .nonzeroZ
  else match (ReqWord.op w).toNat with
    | 0x0 => decodeBare arg .rdst
    | 0x1 => decodeBare arg .crcinit
    | 0x2 => decodeLow 8 arg .crcb
    | 0x3 => decodeBare arg .crcrd
    | 0x4 => .ok (.frame arg)
    | 0x5 => decodeLow 1 arg .rdtx
    | 0x6 => decodeBare arg .xfer
    | 0x7 => checkRange .rxIndexOutOfRange (decodeLow 5 arg .rdrx)
    | 0x8 => checkRange .wordIndexOutOfRange (decodeLow 3 arg .wchk)
    | 0x9 => decodeBare arg .parse
    | 0xA => decodeLow 1 arg .rdw
    | 0xB => decodeBare arg .rdpid
    | 0xC => decodeBare arg .idcmp
    | 0xD => decodeBare arg .sopen
    | 0xE => decodeBare arg .sclose
    | _ => .error .reservedSelector

/-- The selector of an operation (30_encoding.md R47). -/
def Instr.selector : Instr → BitVec 4
  | .rdst => 0x0
  | .crcinit => 0x1
  | .crcb _ => 0x2
  | .crcrd => 0x3
  | .frame _ => 0x4
  | .rdtx _ => 0x5
  | .xfer => 0x6
  | .rdrx _ => 0x7
  | .wchk _ => 0x8
  | .parse => 0x9
  | .rdw _ => 0xA
  | .rdpid => 0xB
  | .idcmp => 0xC
  | .sopen => 0xD
  | .sclose => 0xE

/-- The operand, zero-extended to the 16 bits of `arg`; 0 where there is none (30_encoding.md R48, R55). -/
def Instr.operand : Instr → BitVec 16
  | .rdst => 0
  | .crcinit => 0
  | .crcb b => b.setWidth 16
  | .crcrd => 0
  | .frame c => c
  | .rdtx i => i.setWidth 16
  | .xfer => 0
  | .rdrx j => j.setWidth 16
  | .wchk k => k.setWidth 16
  | .parse => 0
  | .rdw i => i.setWidth 16
  | .rdpid => 0
  | .idcmp => 0
  | .sopen => 0
  | .sclose => 0

/-- The encoder: selector, `z = 0`, operand (30_encoding.md R46, R55). -/
def encode (i : Instr) : ReqWord := i.selector ++ (0 : BitVec 4) ++ i.operand

/-- The `mask` of an operation's row of opcode_table.json. -/
def Instr.tableMask : Instr → ReqWord
  | .rdst => 0xFFFFFF
  | .crcinit => 0xFFFFFF
  | .crcb _ => 0xFFFF00
  | .crcrd => 0xFFFFFF
  | .frame _ => 0xFF0000
  | .rdtx _ => 0xFFFFFE
  | .xfer => 0xFFFFFF
  | .rdrx _ => 0xFFFFE0
  | .wchk _ => 0xFFFFF8
  | .parse => 0xFFFFFF
  | .rdw _ => 0xFFFFFE
  | .rdpid => 0xFFFFFF
  | .idcmp => 0xFFFFFF
  | .sopen => 0xFFFFFF
  | .sclose => 0xFFFFFF

/-- The `match` of an operation's row of opcode_table.json. -/
def Instr.tableMatch : Instr → ReqWord
  | .rdst => 0x000000
  | .crcinit => 0x100000
  | .crcb _ => 0x200000
  | .crcrd => 0x300000
  | .frame _ => 0x400000
  | .rdtx _ => 0x500000
  | .xfer => 0x600000
  | .rdrx _ => 0x700000
  | .wchk _ => 0x800000
  | .parse => 0x900000
  | .rdw _ => 0xA00000
  | .rdpid => 0xB00000
  | .idcmp => 0xC00000
  | .sopen => 0xD00000
  | .sclose => 0xE00000

/-- The request word of an opcode-table row's number: there is one word, 24 bits, and no byte order
(30_encoding.md R46; log entry 12). -/
def tableWord (nbits w : Nat) : ReqWord := BitVec.ofNat 24 (w % 2 ^ nbits)

/-- What the decoder reads from a table row's number. -/
def decodeTableWord (nbits w : Nat) : Option Instr :=
  match decode (tableWord nbits w) with
  | .ok i => some i
  | .error _ => none

end Sys2Proof
end

