-- ==== Sys2Proof/Machine/State.lean ====
section
/-! DEFINITION. The state of the core (10_state.md R7), the inputs a step takes (R24) held as plain data,
and the reasons a step can stop. -/

namespace Sys2Proof.Machine

/-- The two byte-addressed buffer spaces (20_memory.md R28). -/
inductive Space where
  | tx
  | rx
deriving DecidableEq, Repr

/-- The contents of one buffer space: (address, byte) pairs, addresses strictly rising, no entry equal to
`Config.unwrittenByte` (`Memory.wf` in Ops.lean). -/
abbrev Memory := List Host.Cell

/-- `ST.SS` (10_state.md R16). Its value 3 never occurs, so the type has no member for it (log entry 10). -/
inductive SessionState where
  /-- `UNINIT`, code 0: no handle. -/
  | uninit
  /-- `OPEN`, code 1: handle active, identity unverified. -/
  | opened
  /-- `READY`, code 2: identity verified. -/
  | ready
deriving DecidableEq, Repr

/-- `ST.ERR` (10_state.md R19, 60_exceptions.md R90). Its codes 5 to 7 are never written, so the type has no
member for them (log entry 10). -/
inductive ErrorCode where
  /-- `None`, code 0. -/
  | noError
  /-- Code 1, raised by `SOPEN` (60_exceptions.md R92). -/
  | transportUnavailable
  /-- Code 2, raised by `XFER` (60_exceptions.md R93). -/
  | transportError
  /-- Code 3, raised by `PARSE` (60_exceptions.md R94). -/
  | integrityError
  /-- Code 4, raised by `IDCMP` (60_exceptions.md R95). -/
  | identityMismatch
deriving DecidableEq, Repr

/-- The `(ok, data)` an operation answers (30_encoding.md R49). -/
structure Response where
  ok   : Bool
  data : Word
deriving DecidableEq, Repr

/-- What the core asks of the transport (60_exceptions.md R104). -/
inductive TransportCall where
  /-- `acquire`, asked by `SOPEN`. -/
  | acquire
  /-- `write_then_read` of these bytes, first byte sent first, with this `read_len`, asked by `XFER`. -/
  | writeThenRead (writeBytes : List Byte) (readLen : Nat)
deriving DecidableEq, Repr

/-- What the host can do to the core between operations: present a request word (10_state.md R24, R27),
or reset it (70_reset_and_hazards.md R107). -/
inductive HostInput where
  | request (w : ReqWord)
  | reset
deriving DecidableEq, Repr

/-- The machine. The first eleven fields are the architectural state of 10_state.md R7; the rest are the
model's own (INVENTORY.md, '## State'). -/
structure State where
  /-- `CRC` (10_state.md R8). -/
  crc : Byte
  /-- `TX[0..1]` (10_state.md R9). -/
  tx : Memory
  /-- `RX[0..17]` (10_state.md R10). -/
  rx : Memory
  /-- `W[0]` (10_state.md R11). -/
  w0 : Half
  /-- `W[1]` (10_state.md R11). -/
  w1 : Half
  /-- `ST.SS` (10_state.md R16). -/
  ss : SessionState
  /-- `ST.TXV` (10_state.md R14). -/
  txv : Bool
  /-- `ST.RXV` (10_state.md R15). -/
  rxv : Bool
  /-- `ST.DV` (10_state.md R17). -/
  dv : Bool
  /-- `ST.WOK` (10_state.md R18). -/
  wok : Bool
  /-- `ST.ERR` (10_state.md R19). -/
  err : ErrorCode
  /-- What the host presents and has not been served yet, oldest first (log entry 2). -/
  inputs : List HostInput
  /-- The transport's coming answers to `SOPEN`, oldest first; `none` is an answer that never comes
  (log entries 3 and 4). -/
  acquires : List (Option AcquireAnswer)
  /-- The transport's coming answers to `XFER`, oldest first; `none` is an answer that never comes
  (log entries 3 and 4). -/
  transfers : List (Option TransferAnswer)
  /-- The parameters of this instance of the core (00_scope.md R4; log entry 1). -/
  params : Params
  /-- The responses given so far, newest first (log entry 11). -/
  responses : List Response
  /-- What the core asked of the transport so far, newest first (log entry 11). -/
  calls : List TransportCall
  /-- How many free values have been drawn (log entry 7). -/
  draws : Nat
deriving DecidableEq, Repr

/-- The reasons a step stops with a fault. -/
inductive Fault where
  /-- Raised by `RDRX` and `WCHK` when their operand names an address outside the space, which does not
  exist (20_memory.md R28). Only an ill-formed term does, never a decoded word (log entry 9). Safe. -/
  | noSuchAddress (space : Space) (addr : Nat)
  /-- Raised by `SOPEN` and `XFER` when the transport never answers: the operation never completes and the
  core accepts no other (60_exceptions.md R103, 93_implementation_defined.md U14; log entry 4). Safe. -/
  | transportSilent
deriving DecidableEq, Repr

/-- The reasons a step is refused: the spec gives the operation no meaning (60_exceptions.md R99). -/
inductive Refusal where
  /-- Raised by an arm of `exec` whose instruction has no meaning yet. Safe. -/
  | notModelled (mnemonic : String)
  /-- Raised by `step` on an illegal request word (30_encoding.md R50). Safe. -/
  | illegalWord (why : Illegal)
  /-- Raised by `RDTX` and `XFER` when `TXV = 0` (70_reset_and_hazards.md R111). Safe. -/
  | noFrame
  /-- Raised by `XFER` when `SS = UNINIT` (70_reset_and_hazards.md R111). Safe. -/
  | noHandle
  /-- Raised by `RDRX`, `WCHK` and `PARSE` when `RXV = 0` (70_reset_and_hazards.md R111). Safe. -/
  | noResponse
  /-- Raised by `RDW`, `RDPID` and `IDCMP` when `DV = 0` (70_reset_and_hazards.md R111). Safe. -/
  | notDecoded
deriving DecidableEq, Repr

/-- The machine right after reset (10_state.md R25, 70_reset_and_hazards.md R107). `CRC` and `ST` as the spec
says; `TX`, `RX`, `W` are unspecified there and hold 0 here, DESIGN CHOICE (log entry 5), unsafe; the model's own
fields are empty, and the parameters are the body-less constants of Config (log entry 1). -/
def State.reset : State where
  crc := Config.crcInit
  tx := []
  rx := []
  w0 := 0
  w1 := 0
  ss := .uninit
  txv := false
  rxv := false
  dv := false
  wok := false
  err := .noError
  inputs := []
  acquires := []
  transfers := []
  params := ⟨Config.cmdGetProductId, Config.expectedProductId⟩
  responses := []
  calls := []
  draws := 0

end Sys2Proof.Machine
end

