-- ==== Sys2Proof/Machine/Operands.lean ====
section
/-! DEFINITION. Operand forms: halves of a command, big-endian joining, zero extension of what a response
carries, and the buffer addresses an operand names. -/

namespace Sys2Proof.Machine

/-- `c[15:8]`, `cmd_hi` (30_encoding.md R42). -/
def hiByte (c : Half) : Byte := c.extractLsb' 8 8

/-- `c[7:0]`, `cmd_lo` (30_encoding.md R42). -/
def loByte (c : Half) : Byte := c.extractLsb' 0 8

/-- `hi ∥ lo`, the 16-bit payload of a data word (30_encoding.md R43, 20_memory.md R32). -/
def joinBytes (hi lo : Byte) : Half := hi ++ lo

/-- `hi ∥ lo`, the 32-bit product identifier (10_state.md R12). -/
def joinHalves (hi lo : Half) : Word := hi ++ lo

/-- `zext_32` of a byte (30_encoding.md R49). -/
def zextByte (b : Byte) : Word := b.setWidth 32

/-- `zext_32` of a 16-bit value (30_encoding.md R49). -/
def zextHalf (h : Half) : Word := h.setWidth 32

/-- `zext_32` of a flag (30_encoding.md R49). -/
def zextFlag (f : Bool) : Word := (BitVec.ofBool f).setWidth 32

/-- The `TX` address that `RDTX i` names (20_memory.md R28, R36). -/
def txIndex (i : BitVec 1) : Nat := i.toNat

/-- The `RX` address that `RDRX j` names (20_memory.md R28, R36). -/
def rxIndex (j : BitVec 5) : Nat := j.toNat

/-- The response word that `WCHK k` names (42_parser.md R74). -/
def wordIndex (k : BitVec 3) : Nat := k.toNat

/-- The `RX` address `3k` of the first byte of response word `k` (20_memory.md R30). -/
def wordAddr (k : Nat) : Nat := Config.wordStride * k

end Sys2Proof.Machine
end

