-- ==== Sys2Proof/Machine/Ops.lean ====
section
/-! DEFINITION. The named operations over buffers, registers, inputs and the transport; taking an error
(60_exceptions.md R100) and what ends one (R101). -/

namespace Sys2Proof.Machine

/-! ### Buffer memory (20_memory.md R28 to R37) -/

/-- The number of addresses of a space: `TX` has 0 and 1, `RX` has 0 to 17 (20_memory.md R28). -/
def Space.size : Space → Nat
  | .tx => Config.cmdBytes
  | .rx => Config.respLen

/-- The byte at an address; an address not listed reads as `Config.unwrittenByte` (log entry 6). -/
def Memory.byteAt : Memory → Nat → Byte
  | [], _ => Config.unwrittenByte
  | (c, b) :: m, a => if a = c then b else Memory.byteAt m a

/-- An entry in front of a canonical memory, left out when its byte is what an unlisted address reads as. -/
def Memory.put (a : Nat) (b : Byte) (m : Memory) : Memory :=
  if b = Config.unwrittenByte then m else (a, b) :: m

/-- Store one byte, keeping the canonical form. -/
def Memory.store : Memory → Nat → Byte → Memory
  | [], a, b => Memory.put a b []
  | (c, d) :: m, a, b =>
    if a < c then Memory.put a b ((c, d) :: m)
    else if a = c then Memory.put a b m
    else (c, d) :: Memory.store m a b

/-- Store bytes at consecutive addresses, the first at `a`. -/
def Memory.storeBytes : Memory → Nat → List Byte → Memory
  | m, _, [] => m
  | m, a, b :: bs => Memory.storeBytes (Memory.store m a b) (a + 1) bs

/-- Replace a whole buffer: both writers of the core write every address of their space at once
(20_memory.md R36, R37), so nothing of the old contents is left (log entry 16). -/
def Memory.fill (bs : List Byte) : Memory := Memory.storeBytes [] 0 bs

/-- The canonical form of a space's contents: addresses strictly rising and inside the space, and no entry
equal to what an unlisted address reads as. -/
def Memory.wf (sp : Space) (m : Memory) : Bool :=
  decide (m.Pairwise (fun x y => x.1 < y.1)) &&
    m.all (fun c => decide (c.1 < sp.size) && decide (c.2 ≠ Config.unwrittenByte))

/-- `TX[i]` (10_state.md R9). -/
def State.txAt (s : State) (i : Nat) : Byte := Memory.byteAt s.tx i

/-- `RX[j]` (10_state.md R10). -/
def State.rxAt (s : State) (j : Nat) : Byte := Memory.byteAt s.rx j

/-! ### Registers -/

/-- `W[i]` (10_state.md R11). -/
def State.wReg (s : State) (i : BitVec 1) : Half := if i = 0 then s.w0 else s.w1

/-- `PID`, a view of `W[0] ∥ W[1]` (10_state.md R12). -/
def State.pid (s : State) : Word := joinHalves s.w0 s.w1

/-- `FRAME`'s write of both bytes of `TX`, high byte first (41_framer.md R67, 20_memory.md R31). -/
def State.loadFrame (s : State) (c : Half) : State :=
  { s with tx := Memory.fill [hiByte c, loByte c], txv := true }

/-- A successful transaction's write of all eighteen bytes of `RX` (42_parser.md R71, 20_memory.md R37). -/
def State.loadResponse (s : State) (b : Vector Byte 18) : State :=
  { s with rx := Memory.fill b.toList, rxv := true }

/-- A failed transaction leaves `RX` unspecified: eighteen free bytes (42_parser.md R71; log entry 7). -/
def State.loseResponse (s : State) : State :=
  { s with rx := Memory.fill (Config.freeResponse s.draws).toList, rxv := false, draws := s.draws + 1 }

/-- Every `XFER` first drops what described the old response (42_parser.md R71, 70_reset_and_hazards.md R112). -/
def State.beginTransfer (s : State) : State :=
  { s with ss := .opened, dv := false, wok := false }

/-- Decode response words 0 and 1 into `W` (42_parser.md R75, R76). -/
def State.decodeWords (s : State) : State :=
  { s with w0 := joinBytes (s.rxAt 0) (s.rxAt 1), w1 := joinBytes (s.rxAt 3) (s.rxAt 4), dv := true }

/-- What `SOPEN` and `SCLOSE` do to the session (43_session.md R81, R82): no handle, no valid flag. -/
def State.discardSession (s : State) : State :=
  { s with ss := .uninit, txv := false, rxv := false, dv := false, wok := false }

/-! ### Responses and errors -/

/-- Answer `(ok, data)` (30_encoding.md R49). -/
def State.answer (s : State) (ok : Bool) (data : Word) : State :=
  { s with responses := ⟨ok, data⟩ :: s.responses }

/-- Taking an error, the one entry there is: `ST.ERR` gets its code and the operation answers `(0, 0)`;
nothing is saved and control stays with the host (60_exceptions.md R91, R100). -/
def State.raise (s : State) (e : ErrorCode) : State :=
  State.answer { s with err := e } false 0

/-- A session-step operation that succeeds: `ST.ERR <- 0` and the answer `(1, 0)` (60_exceptions.md R91).
There is no return from an error; this, the next raise, or `SCLOSE` ends one (R101). -/
def State.succeed (s : State) : State :=
  State.answer { s with err := .noError } true 0

/-! ### Preconditions and addresses -/

/-- An operation whose precondition does not hold has no meaning (60_exceptions.md R99). -/
def require (c : Bool) (r : Refusal) (k : Host.Outcome State Fault Refusal) :
    Host.Outcome State Fault Refusal :=
  if c then k else .refused r

/-- An access to `n` bytes from `a` on; an address outside the space does not exist (20_memory.md R28). -/
def checkAddr (sp : Space) (a n : Nat) (k : Host.Outcome State Fault Refusal) :
    Host.Outcome State Fault Refusal :=
  if a + n ≤ sp.size then k else .fault (.noSuchAddress sp a)

/-! ### The transport (00_scope.md R6, 60_exceptions.md R104) -/

/-- The answer the transport gives to the next `SOPEN`: the oldest one placed, and a free value where none is
placed (log entry 3). `none` is an answer that never comes (log entry 4). -/
def State.acquireAnswer (s : State) : Option AcquireAnswer :=
  match s.acquires with
  | [] => some (Config.freeAcquire s.draws)
  | a :: _ => a

/-- The answer the transport gives to the next `XFER`, in the same way. -/
def State.transferAnswer (s : State) : Option TransferAnswer :=
  match s.transfers with
  | [] => some (Config.freeTransfer s.draws)
  | a :: _ => a

/-- The draws after an answer is taken from a list: a draw only where the list is empty. -/
def drawsAfter {α : Type} (answers : List α) (draws : Nat) : Nat :=
  if answers.isEmpty then draws + 1 else draws

/-- Ask the transport for a handle and take its answer in. -/
def State.askAcquire (s : State) : State :=
  { s with calls := .acquire :: s.calls, acquires := s.acquires.tail, draws := drawsAfter s.acquires s.draws }

/-- Hand the transport the frame, `TX[0]` first, ask for 18 bytes back, and take its answer in
(41_framer.md R70, 42_parser.md R71). -/
def State.askTransfer (s : State) : State :=
  { s with
    calls := .writeThenRead [s.txAt 0, s.txAt 1] Config.respLen :: s.calls
    transfers := s.transfers.tail
    draws := drawsAfter s.transfers s.draws }

/-! ### The host -/

/-- The oldest input the host presents, and the state in which it has been taken (10_state.md R27). -/
def State.takeInput (s : State) : Option (HostInput × State) :=
  match s.inputs with
  | [] => none
  | x :: xs => some (x, { s with inputs := xs })

/-- The host resets the core between two operations (70_reset_and_hazards.md R107): `CRC` and `ST` as
10_state.md R25 says, and free values in `TX`, `RX` and `W` (log entry 13). -/
def State.hostReset (s : State) : State :=
  { s with
    crc := Config.crcInit
    tx := Memory.fill (Config.freeFrame s.draws).toList
    rx := Memory.fill (Config.freeResponse s.draws).toList
    w0 := Config.freeDecoded 0 s.draws
    w1 := Config.freeDecoded 1 s.draws
    ss := .uninit
    txv := false
    rxv := false
    dv := false
    wok := false
    err := .noError
    draws := s.draws + 1 }

/-- The host places a request word in front of what it presents. -/
def State.present (s : State) (w : ReqWord) : State :=
  { s with inputs := .request w :: s.inputs }

end Sys2Proof.Machine
end

