-- ==== Sys2Proof/Machine/Flags.lean ====
section
/-! DEFINITION. The status register (10_state.md R13) and what the flags and errors are computed from:
word validity (42_parser.md R73) and the identity comparison (43_session.md R83). -/

namespace Sys2Proof.Machine

/-- The code of `ST.SS` (10_state.md R16). -/
def SessionState.code : SessionState → BitVec 2
  | .uninit => 0
  | .opened => 1
  | .ready => 2

/-- The code of `ST.ERR` (10_state.md R19, 60_exceptions.md R90). -/
def ErrorCode.code : ErrorCode → BitVec 3
  | .noError => 0
  | .transportUnavailable => 1
  | .transportError => 2
  | .integrityError => 3
  | .identityMismatch => 4

/-- `ST`, from bit 15 down: reserved 15:11, `ERR` 10:8, reserved 7:6, `WOK`, `DV`, `RXV`, `TXV`, `SS` 1:0
(10_state.md R13, R20). -/
def State.st (s : State) : Half :=
  (0 : BitVec 5) ++ s.err.code ++ (0 : BitVec 2) ++ BitVec.ofBool s.wok ++ BitVec.ofBool s.dv
    ++ BitVec.ofBool s.rxv ++ BitVec.ofBool s.txv ++ s.ss.code

/-- A data word is valid when its CRC byte is the CRC of its two payload bytes (30_encoding.md R43). -/
def dataWordValid (hi lo crc : Byte) : Bool := crc8 [hi, lo] == crc

/-- `word_valid(k)` (42_parser.md R73). -/
def State.wordValid (s : State) (k : Nat) : Bool :=
  dataWordValid (s.rxAt (wordAddr k)) (s.rxAt (wordAddr k + 1)) (s.rxAt (wordAddr k + 2))

/-- What `PARSE` requires to decode: words 0 and 1, and no other, are valid (42_parser.md R75, R78;
90_conflicts.md C3). -/
def State.bothWordsValid (s : State) : Bool := s.wordValid 0 && s.wordValid 1

/-- The identity comparison, on all 32 bits (43_session.md R83). -/
def State.identityMatches (s : State) : Bool := s.pid == s.params.expectedProductId

/-- The handle `SS` mirrors is live (10_state.md R16). -/
def State.hasHandle (s : State) : Bool := decide (s.ss ≠ .uninit)

end Sys2Proof.Machine
end

