-- ==== Sys2Proof/Machine/CrcUnit.lean ====
section
/-! DEFINITION. `CRCINIT`, `CRCB`, `CRCRD` (40_crc8.md R63 to R65). -/

namespace Sys2Proof.Machine

/-- `CRCINIT` (40_crc8.md R63). -/
def execCrcinit (s : State) : Host.Outcome State Fault Refusal :=
  .next (State.answer { s with crc := Config.crcInit } true 0)

/-- `CRCB b` (40_crc8.md R64). -/
def execCrcb (b : BitVec 8) (s : State) : Host.Outcome State Fault Refusal :=
  .next (State.answer { s with crc := crcStep s.crc b } true 0)

/-- `CRCRD` (40_crc8.md R65). -/
def execCrcrd (s : State) : Host.Outcome State Fault Refusal :=
  .next (s.answer true (zextByte s.crc))

end Sys2Proof.Machine
end

