-- ==== Sys2Proof/Machine/Framer.lean ====
section
/-! DEFINITION. `FRAME`, `RDTX` (41_framer.md R67, R69). -/

namespace Sys2Proof.Machine

/-- `FRAME c` (41_framer.md R67): every 16-bit value is framed (R68). -/
def execFrame (c : BitVec 16) (s : State) : Host.Outcome State Fault Refusal :=
  .next ((s.loadFrame c).answer true 0)

/-- `RDTX i` (41_framer.md R69). -/
def execRdtx (i : BitVec 1) (s : State) : Host.Outcome State Fault Refusal :=
  require s.txv .noFrame <|
  checkAddr .tx (txIndex i) 1 <|
  .next (s.answer true (zextByte (s.txAt (txIndex i))))

end Sys2Proof.Machine
end

