-- ==== Sys2Proof/Machine/Parser.lean ====
section
/-! DEFINITION. `XFER`, `RDRX`, `WCHK`, `PARSE`, `RDW`, `RDPID` (42_parser.md R71 to R80). -/

namespace Sys2Proof.Machine

/-- How an `XFER` ends, once the transport has answered (42_parser.md R71, 60_exceptions.md R93). -/
def State.endTransfer (s : State) : TransferAnswer → State
  | .ok b => (s.loadResponse b).succeed
  | .fail => s.loseResponse.raise .transportError

/-- `XFER` (42_parser.md R71). It stops where the transport never answers (60_exceptions.md R103). -/
def execXfer (s : State) : Host.Outcome State Fault Refusal :=
  require s.hasHandle .noHandle <|
  require s.txv .noFrame <|
  match s.transferAnswer with
  | none => .fault .transportSilent
  | some a => .next (s.beginTransfer.askTransfer.endTransfer a)

/-- `RDRX j` (42_parser.md R72). -/
def execRdrx (j : BitVec 5) (s : State) : Host.Outcome State Fault Refusal :=
  require s.rxv .noResponse <|
  checkAddr .rx (rxIndex j) 1 <|
  .next (s.answer true (zextByte (s.rxAt (rxIndex j))))

/-- `WCHK k` (42_parser.md R74): a query, which raises no error. -/
def execWchk (k : BitVec 3) (s : State) : Host.Outcome State Fault Refusal :=
  require s.rxv .noResponse <|
  checkAddr .rx (wordAddr (wordIndex k)) Config.wordStride <|
  .next (State.answer { s with wok := s.wordValid (wordIndex k) } true (zextFlag (s.wordValid (wordIndex k))))

/-- `PARSE` (42_parser.md R75, 60_exceptions.md R94). -/
def execParse (s : State) : Host.Outcome State Fault Refusal :=
  require s.rxv .noResponse <|
  .next (if s.bothWordsValid then s.decodeWords.succeed
    else State.raise { s with dv := false, ss := .opened } .integrityError)

/-- `RDW i` (42_parser.md R79). -/
def execRdw (i : BitVec 1) (s : State) : Host.Outcome State Fault Refusal :=
  require s.dv .notDecoded <|
  .next (s.answer true (zextHalf (s.wReg i)))

/-- `RDPID` (42_parser.md R80). -/
def execRdpid (s : State) : Host.Outcome State Fault Refusal :=
  require s.dv .notDecoded <|
  .next (s.answer true s.pid)

end Sys2Proof.Machine
end

