-- ==== Sys2Proof/Machine/Session.lean ====
section
/-! DEFINITION. `SOPEN`, `SCLOSE`, `IDCMP`, `RDST` (43_session.md R81 to R84). -/

namespace Sys2Proof.Machine

/-- How an `SOPEN` ends, once the transport has answered (43_session.md R81, 60_exceptions.md R92). -/
def State.endAcquire (s : State) : AcquireAnswer → State
  | .acquired => State.succeed { s with ss := .opened }
  | .failed => s.raise .transportUnavailable

/-- `SOPEN` (43_session.md R81): discard, then ask for a handle. It stops where the transport never answers
(60_exceptions.md R103). -/
def execSopen (s : State) : Host.Outcome State Fault Refusal :=
  match s.acquireAnswer with
  | none => .fault .transportSilent
  | some a => .next (s.discardSession.askAcquire.endAcquire a)

/-- `SCLOSE` (43_session.md R82). -/
def execSclose (s : State) : Host.Outcome State Fault Refusal :=
  .next s.discardSession.succeed

/-- `IDCMP` (43_session.md R83, 60_exceptions.md R95). -/
def execIdcmp (s : State) : Host.Outcome State Fault Refusal :=
  require s.dv .notDecoded <|
  .next (if s.identityMatches then State.succeed { s with ss := .ready }
    else State.raise { s with ss := .opened } .identityMismatch)

/-- `RDST` (43_session.md R84). -/
def execRdst (s : State) : Host.Outcome State Fault Refusal :=
  .next (s.answer true (zextHalf s.st))

end Sys2Proof.Machine
end

