-- ==== Sys2Proof/Machine/Dispatch.lean ====
section
/-! DEFINITION. One arm per operation (30_encoding.md R47). -/

namespace Sys2Proof.Machine

def exec (i : Instr) (s : State) : Host.Outcome State Fault Refusal :=
  match i with
  | .rdst => Sys2Proof.Machine.execRdst s
  | .crcinit => Sys2Proof.Machine.execCrcinit s
  | .crcb b => Sys2Proof.Machine.execCrcb b s
  | .crcrd => Sys2Proof.Machine.execCrcrd s
  | .frame c => Sys2Proof.Machine.execFrame c s
  | .rdtx k => Sys2Proof.Machine.execRdtx k s
  | .xfer => Sys2Proof.Machine.execXfer s
  | .rdrx j => Sys2Proof.Machine.execRdrx j s
  | .wchk k => Sys2Proof.Machine.execWchk k s
  | .parse => Sys2Proof.Machine.execParse s
  | .rdw k => Sys2Proof.Machine.execRdw k s
  | .rdpid => Sys2Proof.Machine.execRdpid s
  | .idcmp => Sys2Proof.Machine.execIdcmp s
  | .sopen => Sys2Proof.Machine.execSopen s
  | .sclose => Sys2Proof.Machine.execSclose s

end Sys2Proof.Machine
end

