-- ==== Sys2Proof/Machine/Step.lean ====
section
/-! DEFINITION. One step of the machine: the host's next input, served to completion (10_state.md R27). -/

namespace Sys2Proof.Machine

/-- The oldest input of the host is taken. A request word is decoded and performed; an illegal one is refused
(60_exceptions.md R99); a reset resets the core (70_reset_and_hazards.md R107). With no input nothing happens:
nothing changes core state between operations (20_memory.md R39; log entry 2). -/
def step (s : State) : Host.Outcome State Fault Refusal :=
  match s.takeInput with
  | none => .next s
  | some (.reset, t) => .next t.hostReset
  | some (.request w, t) =>
    match decode w with
    | .ok i => exec i t
    | .error why => .refused (.illegalWord why)

/-- The request word numbered `w`, presented as the host's next input (log entry 2). -/
def State.withFetchWord (s : State) (nbits w : Nat) : State := s.present (tableWord nbits w)

end Sys2Proof.Machine
end

