-- ==== Sys2Proof/Machine/Pseudo.lean ====
section
/-! DEFINITION. Sequences of operations as the host issues them: the pseudo-instructions `CRC8` and `OPEN`
(30_encoding.md R53, R54) and a run (70_reset_and_hazards.md R117). -/

namespace Sys2Proof.Machine

/-- `CRC8 b0, ..., bn-1` (30_encoding.md R53). -/
def crc8Ops (bs : List Byte) : List Instr := .crcinit :: (bs.map Instr.crcb ++ [.crcrd])

/-- `OPEN`, the five operations of the open sequence in order (30_encoding.md R54, 43_session.md R86). -/
def openOps (p : Params) : List Instr := [.sopen, .frame p.cmdGetProductId, .xfer, .parse, .idcmp]

/-- A run: a finite sequence of operations, each performed to completion (70_reset_and_hazards.md R117). It does
not pass through a refused operation (60_exceptions.md R99). -/
def runOps : List Instr → State → Host.Outcome State Fault Refusal
  | [], s => .next s
  | i :: is, s =>
    match exec i s with
    | .next t => runOps is t
    | .fault f => .fault f
    | .refused r => .refused r

/-- The `ok` bit of the last response. -/
def State.lastOk (s : State) : Bool :=
  match s.responses with
  | [] => true
  | r :: _ => r.ok

/-- A run in which the host stops after the first operation that answers `ok = 0` (43_session.md R86). -/
def runUntilError : List Instr → State → Host.Outcome State Fault Refusal
  | [], s => .next s
  | i :: is, s =>
    match exec i s with
    | .next t => if t.lastOk then runUntilError is t else .next t
    | .fault f => .fault f
    | .refused r => .refused r

/-- The open sequence (43_session.md R86); it succeeds when the last response has `ok = 1` (R87). -/
def runOpen (s : State) : Host.Outcome State Fault Refusal := runUntilError (openOps s.params) s

/-- The bytes a sequence of operations feeds to the accumulator, in order (40_crc8.md R66). -/
def fedBytes : List Instr → List Byte
  | [] => []
  | .crcb b :: is => b :: fedBytes is
  | _ :: is => fedBytes is

end Sys2Proof.Machine
end

