-- ==== Sys2Proof/Machine/Assembly.lean ====
section
/-! DEFINITION. The assembler syntax (30_encoding.md R52) and the pseudo-instructions' spelling (R53, R54): one
line of text to the operations it stands for. Details the rule leaves open: log entry 15. -/

namespace Sys2Proof.Machine

/-- Words of a line: separated by spaces, and by the commas of `CRC8`'s operand list. -/
def splitWords : List Char → List Char → List (List Char)
  | cur, [] => if cur.isEmpty then [] else [cur.reverse]
  | cur, c :: cs =>
    if c = ' ' ∨ c = ',' then
      if cur.isEmpty then splitWords [] cs else cur.reverse :: splitWords [] cs
    else splitWords (c :: cur) cs

/-- The words of the request: a comment starts at `;`, and what follows `<-` (the transport's answer) or `=>`
(the expected response) is no part of it. -/
def requestWords (line : List Char) : List (List Char) :=
  (splitWords [] (line.takeWhile (fun c => decide (c ≠ ';')))).takeWhile
    (fun t => decide (t ≠ ['<', '-'] ∧ t ≠ ['=', '>']))

/-- The value of a digit in a base up to 16. -/
def digitValue (base : Nat) (c : Char) : Option Nat :=
  let n := c.toNat
  let v := if 48 ≤ n ∧ n ≤ 57 then n - 48
    else if 65 ≤ n ∧ n ≤ 70 then n - 55
    else if 97 ≤ n ∧ n ≤ 102 then n - 87
    else 16
  if v < base then some v else none

/-- Digits after what has been read. -/
def digits (base : Nat) : Nat → List Char → Option Nat
  | acc, [] => some acc
  | acc, c :: cs =>
    match digitValue base c with
    | some v => digits base (base * acc + v) cs
    | none => none

/-- An operand: hexadecimal with `0x`, or decimal. -/
def numeral : List Char → Option Nat
  | [] => none
  | '0' :: 'x' :: c :: cs => digits 16 0 (c :: cs)
  | c :: cs => digits 10 0 (c :: cs)

/-- An operand of `n` bits; a value that does not fit is no operand. -/
def operandBits (n : Nat) (t : List Char) : Option (BitVec n) :=
  match numeral t with
  | some v => if v < 2 ^ n then some (BitVec.ofNat n v) else none
  | none => none

/-- A 16-bit operand, for which the parameter's name may stand. -/
def commandOperand (p : Params) (t : List Char) : Option (BitVec 16) :=
  if t = "CMD_GET_PRODUCT_ID".toList then some p.cmdGetProductId else operandBits 16 t

/-- All of a list of operands, or none. -/
def operandBytes : List (List Char) → Option (List Byte)
  | [] => some []
  | t :: ts =>
    match operandBits 8 t, operandBytes ts with
    | some b, some bs => some (b :: bs)
    | _, _ => none

/-- The mnemonics without operand. -/
def bareMnemonics : List (List Char × Instr) :=
  [("RDST".toList, .rdst), ("CRCINIT".toList, .crcinit), ("CRCRD".toList, .crcrd), ("XFER".toList, .xfer),
   ("PARSE".toList, .parse), ("RDPID".toList, .rdpid), ("IDCMP".toList, .idcmp), ("SOPEN".toList, .sopen),
   ("SCLOSE".toList, .sclose)]

/-- An operation with one operand, spelled by its mnemonic. -/
def unaryInstr (p : Params) (m t : List Char) : Option Instr :=
  if m = "CRCB".toList then (operandBits 8 t).map .crcb
  else if m = "FRAME".toList then (commandOperand p t).map .frame
  else if m = "RDTX".toList then (operandBits 1 t).map .rdtx
  else if m = "RDRX".toList then (operandBits 5 t).map .rdrx
  else if m = "WCHK".toList then (operandBits 3 t).map .wchk
  else if m = "RDW".toList then (operandBits 1 t).map .rdw
  else none

/-- The operation a mnemonic and its operands spell. An operand outside its legal range spells none. -/
def spelledInstr (p : Params) (m : List Char) : List (List Char) → Option Instr
  | [] => bareMnemonics.lookup m
  | [t] => (unaryInstr p m t).filter Instr.wellFormed
  | _ => none

/-- One line of assembler text: no operation, one operation, or a pseudo-instruction's sequence. -/
def assembleLine (p : Params) (line : List Char) : Option (List Instr) :=
  match requestWords line with
  | [] => some []
  | m :: ts =>
    if m = "CRC8".toList then (operandBytes ts).map crc8Ops
    else if m = "OPEN".toList then (if ts.isEmpty then some (openOps p) else none)
    else (spelledInstr p m ts).map (fun i => [i])

end Sys2Proof.Machine
end

