-- ==== Sys2Proof/Safety.lean ====
section
/-! DEFINITION. What counts as a safe run, and the terms claims are stated in: legal words, preconditions,
launch states, and the relations of 10_state.md R21. -/

namespace Sys2Proof.Machine

/-- The bits of `arg` that must be 0, by selector (30_encoding.md R48). -/
def zeroArgBits (op : BitVec 4) : BitVec 16 :=
  if op = 0x2 then 0xFF00
  else if op = 0x4 then 0x0000
  else if op = 0x5 ∨ op = 0xA then 0xFFFE
  else if op = 0x7 then 0xFFE0
  else if op = 0x8 then 0xFFF8
  else 0xFFFF

/-- An illegal request word, by the conditions of 30_encoding.md R50. -/
def IllegalWord (w : ReqWord) : Prop :=
  w.extractLsb' 20 4 = 0xF ∨
  w.extractLsb' 16 4 ≠ 0 ∨
  w.extractLsb' 0 16 &&& zeroArgBits (w.extractLsb' 20 4) ≠ 0 ∨
  (w.extractLsb' 20 4 = 0x7 ∧ 18 ≤ (w.extractLsb' 0 5).toNat) ∨
  (w.extractLsb' 20 4 = 0x8 ∧ 6 ≤ (w.extractLsb' 0 3).toNat)

/-- The precondition of each operation (70_reset_and_hazards.md R111, the whole table). -/
def precondition : Instr → State → Prop
  | .rdst, _ => True
  | .crcinit, _ => True
  | .crcb _, _ => True
  | .crcrd, _ => True
  | .frame _, _ => True
  | .rdtx _, s => s.txv = true
  | .xfer, s => s.ss ≠ .uninit ∧ s.txv = true
  | .rdrx _, s => s.rxv = true
  | .wchk _, s => s.rxv = true
  | .parse, s => s.rxv = true
  | .rdw _, s => s.dv = true
  | .rdpid, s => s.dv = true
  | .idcmp, s => s.dv = true
  | .sopen, _ => True
  | .sclose, _ => True

/-- The transport answers what the operation asks of it (60_exceptions.md R104: it must). -/
def transportAnswers : Instr → State → Prop
  | .sopen, s => s.acquireAnswer ≠ none
  | .xfer, s => s.transferAnswer ≠ none
  | _, _ => True

/-- The session-step operations: those that can raise an error (60_exceptions.md R89). -/
def sessionStep : Instr → Bool
  | .sopen => true
  | .xfer => true
  | .parse => true
  | .idcmp => true
  | _ => false

/-- The one error an operation can raise (60_exceptions.md R90); `noError` for an operation that raises none. -/
def raisableError : Instr → ErrorCode
  | .sopen => .transportUnavailable
  | .xfer => .transportError
  | .parse => .integrityError
  | .idcmp => .identityMismatch
  | _ => .noError

/-- A launch state (70_reset_and_hazards.md R107): `CRC = 0xFF`, `ST = 0`, arbitrary `TX`, `RX`, `W`. -/
structure Launch (s : State) : Prop where
  crc : s.crc = 0xFF
  ss  : s.ss = .uninit
  txv : s.txv = false
  rxv : s.rxv = false
  dv  : s.dv = false
  wok : s.wok = false
  err : s.err = .noError

/-- The relations that hold in every reachable state, items 1 to 5 and 7 of 10_state.md R21
(item 6 is about the codes in `ST`). -/
structure Inv (s : State) : Prop where
  /-- Item 1. -/
  dv_rxv : s.dv = true → s.rxv = true
  /-- Item 2. -/
  dv_words : s.dv = true → s.w0 = s.rxAt 0 ++ s.rxAt 1 ∧ s.w1 = s.rxAt 3 ++ s.rxAt 4
  /-- Item 3. -/
  dv_crc : s.dv = true → crc8 [s.rxAt 0, s.rxAt 1] = s.rxAt 2 ∧ crc8 [s.rxAt 3, s.rxAt 4] = s.rxAt 5
  /-- Item 4. -/
  ready_verified : s.ss = .ready → s.dv = true ∧ s.pid = s.params.expectedProductId
  /-- Item 5. -/
  rxv_handle : s.rxv = true → s.ss ≠ .uninit
  /-- Item 7. -/
  mismatch_found : s.err = .identityMismatch → s.dv = true ∧ s.pid ≠ s.params.expectedProductId

/-- Both buffers are in canonical form. -/
def BuffersCanonical (s : State) : Prop := Memory.wf .tx s.tx = true ∧ Memory.wf .rx s.rx = true

/-- The same outcome with its next state changed by `f`: for comparing two runs. -/
def mapNext (f : State → State) : Host.Outcome State Fault Refusal → Host.Outcome State Fault Refusal
  | .next t => .next (f t)
  | .fault r => .fault r
  | .refused r => .refused r

end Sys2Proof.Machine
end

