-- ==== Sys2Proof/Certificates/Slice0/Obligations.lean ====
section
/-! DEFINITION. The statements for the provers. Each docstring names the rule of spec/ it formalises. -/

open Sys2Proof Sys2Proof.Machine

/-! ### Request words -/

/-- 30_encoding.md R55: the encoder and the decoder are inverse to each other on legal words, in the form the
rule gives the encoder, with its examples. -/
def Obligations.DecodeInvertsEncode : Prop :=
  (∀ i : Instr, i.wellFormed = true → decode (encode i) = .ok i) ∧
  (∀ (w : ReqWord) (i : Instr), decode w = .ok i → i.wellFormed = true ∧ encode i = w) ∧
  (∀ (v w : ReqWord) (i : Instr), decode v = .ok i → decode w = .ok i → v = w) ∧
  (∀ i : Instr, encode i = (i.selector.setWidth 24 <<< 20) ||| i.operand.setWidth 24) ∧
  encode (.crcb 0xBE) = 0x2000BE ∧ encode (.frame 0x365B) = 0x40365B ∧ encode (.wchk 5) = 0x800005 ∧
  encode (.rdrx 17) = 0x700011 ∧ encode .sclose = 0xE00000 ∧ encode .rdst = 0x000000

/-- 30_encoding.md R50: the decoder answers invalid on exactly the words the rule lists, and such a word has no
next state in any state. -/
def Obligations.IllegalWordsAreRefused : Prop :=
  (∀ w : ReqWord, (∃ why, decode w = .error why) ↔ IllegalWord w) ∧
  (∀ (w : ReqWord) (s : State), IllegalWord w → ∃ why, step (s.present w) = .refused (.illegalWord why))

/-- opcode_table.json: a word decodes to an operation only if it matches that operation's row under the row's mask,
so the rows never compete for a word. -/
def Obligations.DecodedWordsMatchTheirTableRow : Prop :=
  (∀ (w : ReqWord) (i : Instr), decode w = .ok i → w &&& i.tableMask = i.tableMatch) ∧
  (∀ (w : ReqWord) (i j : Instr), w &&& i.tableMask = i.tableMatch → w &&& j.tableMask = j.tableMatch →
    i.selector = j.selector)

/-- Request words written out from 30_encoding.md R46 to R48 decode to the operations they stand for, and illegal
neighbours (95_test_vectors.md section 2.9) do not decode. -/
def Obligations.HandWrittenWordsDecode : Prop :=
  decode 0b000000000000000000000000 = .ok .rdst ∧
  decode 0b000100000000000000000000 = .ok .crcinit ∧
  decode 0b001000000000000010111110 = .ok (.crcb 0xBE) ∧
  decode 0b001100000000000000000000 = .ok .crcrd ∧
  decode 0b010000000011011001011011 = .ok (.frame 0x365B) ∧
  decode 0b010100000000000000000001 = .ok (.rdtx 1) ∧
  decode 0b011000000000000000000000 = .ok .xfer ∧
  decode 0b011100000000000000010001 = .ok (.rdrx 17) ∧
  decode 0b100000000000000000000101 = .ok (.wchk 5) ∧
  decode 0b100100000000000000000000 = .ok .parse ∧
  decode 0b101000000000000000000001 = .ok (.rdw 1) ∧
  decode 0b101100000000000000000000 = .ok .rdpid ∧
  decode 0b110000000000000000000000 = .ok .idcmp ∧
  decode 0b110100000000000000000000 = .ok .sopen ∧
  decode 0b111000000000000000000000 = .ok .sclose ∧
  decode 0xF00000 = .error .reservedSelector ∧ decode 0x010000 = .error .nonzeroZ ∧
  decode 0x200100 = .error .strayArgBits ∧ decode 0x700012 = .error .rxIndexOutOfRange ∧
  decode 0x800006 = .error .wordIndexOutOfRange

/-! ### The step -/

/-- 10_state.md R27: a step serves the host's oldest input to completion. A request word that decodes is performed
in the state in which it has been taken. That a step without input changes nothing is the model's choice
(log entry 2), and so is that a reset is an input (log entry 13). -/
def Obligations.StepPerformsTheOldestInput : Prop :=
  (∀ s : State, s.inputs = [] → step s = .next s) ∧
  (∀ (s : State) (w : ReqWord) (xs : List HostInput) (i : Instr), s.inputs = .request w :: xs →
    decode w = .ok i → step s = exec i { s with inputs := xs }) ∧
  (∀ (s : State) (w : ReqWord) (xs : List HostInput) (why : Illegal), s.inputs = .request w :: xs →
    decode w = .error why → step s = .refused (.illegalWord why)) ∧
  (∀ (s : State) (xs : List HostInput), s.inputs = .reset :: xs →
    step s = .next ({ s with inputs := xs } : State).hostReset)

/-- Presenting the request words of a sequence of legal operations and stepping the machine once for each is
performing the operations in order (10_state.md section 7, 70_reset_and_hazards.md section 5); the inputs that stand behind
them stay. -/
def Obligations.PresentedWordsRunInOrder : Prop :=
  ∀ (ops : List Instr) (xs : List HostInput) (s : State), (∀ i ∈ ops, i.wellFormed = true) →
    Sys2Proof.core.run ops.length ({ s with inputs := ops.map (fun i => .request (encode i)) ++ xs } : State) =
      runOps ops { s with inputs := xs }

/-! ### The CRC unit -/

/-- 40_crc8.md R57, R58, R60: the byte step is XOR and then eight times a left shift by one, with 0x31 XORed in when
the bit shifted out was 1; `crc8` folds it over the bytes from 0xFF. -/
def Obligations.CrcIsTheFoldOfEightShifts : Prop :=
  (∀ c b : Byte, crcStep c b =
    (fun a : Byte => if a.msb = true then (a <<< 1) ^^^ 0x31 else a <<< 1)^[8] (c ^^^ b)) ∧
  crc8 [] = 0xFF ∧
  (∀ (s : List Byte) (b : Byte), crc8 (s ++ [b]) = crcStep (crc8 s) b)

/-- 40_crc8.md R62 items 1 and 2: the byte step depends on `c ^ b` alone and is a bijection, and for a fixed first
byte every CRC value comes from exactly one second byte. -/
def Obligations.CrcStepIsABijection : Prop :=
  (∀ c b : Byte, crcStep c b = crcStep 0 (c ^^^ b)) ∧
  (∀ x y : Byte, crcStep 0 x = crcStep 0 y → x = y) ∧
  (∀ b0 v : Byte, ∃ b1 : Byte, crc8 [b0, b1] = v ∧ ∀ b : Byte, crc8 [b0, b] = v → b = b1)

/-- 40_crc8.md R62 item 3: linearity over XOR, for bytes and for sequences of equal length. -/
def Obligations.CrcIsLinearOverXor : Prop :=
  (∀ x y : Byte, crcStep 0 (x ^^^ y) = crcStep 0 x ^^^ crcStep 0 y) ∧
  (∀ s t : List Byte, s.length = t.length →
    crc8 s ^^^ crc8 t ^^^ crc8 (List.replicate s.length 0) = crc8 (List.zipWith (· ^^^ ·) s t))

/-- 40_crc8.md R62 item 4: a data word is valid exactly when the CRC of all three of its bytes is 0. -/
def Obligations.ValidWordHasZeroResidue : Prop :=
  (∀ b0 b1 : Byte, crc8 [b0, b1, crc8 [b0, b1]] = 0) ∧
  (∀ hi lo c : Byte, crc8 [hi, lo] = c ↔ crc8 [hi, lo, c] = 0)

/-- 40_crc8.md R62 item 5: flipping any one bit, or any two different bits, of the 24 bits of a valid data word makes
it invalid (`p = q` is the single flip). -/
def Obligations.CrcDetectsOneAndTwoBitErrors : Prop :=
  ∀ (hi lo c : Byte) (p q : Fin 24), crc8 [hi, lo] = c →
    let e : BitVec 24 := (1#24 <<< p.val) ||| (1#24 <<< q.val)
    crc8 [hi ^^^ e.extractLsb' 16 8, lo ^^^ e.extractLsb' 8 8] ≠ c ^^^ e.extractLsb' 0 8

/-- 40_crc8.md R63: `CRCINIT`, from every state. The next state is the old one but for `CRC` and the response. -/
def Obligations.CrcinitStartsANewChecksum : Prop :=
  encode .crcinit = 0x100000 ∧
  ∀ s : State, exec .crcinit s =
    .next { s with crc := 0xFF, responses := ⟨true, 0⟩ :: s.responses }

/-- 40_crc8.md R64: `CRCB b`, from every state, with the rule's corner cases. The next state is the old one but for
`CRC` and the response. -/
def Obligations.CrcbFeedsOneByte : Prop :=
  (∀ b : Byte, encode (.crcb b) = 0x200000 ||| b.setWidth 24) ∧
  (∀ (b : Byte) (s : State), exec (.crcb b) s =
    .next { s with crc := crcStep s.crc b, responses := ⟨true, 0⟩ :: s.responses }) ∧
  (∀ c : Byte, crcStep c 0 = crcStep 0 c) ∧
  (∀ c : Byte, crcStep c 0 = c ↔ c = 0x00 ∨ c = 0xEF) ∧
  (∀ c : Byte, crcStep c c = 0x00) ∧
  crcStep 0xFF 0xFF = 0x00 ∧ crcStep 0xFF 0x00 = 0xAC ∧ crcStep 0xFF 0xBE = 0x0C ∧ crcStep 0x0C 0xEF = 0x92

/-- 40_crc8.md R65: `CRCRD`, from every state. Nothing changes but the response, whose bits 31:8 are 0. -/
def Obligations.CrcrdAnswersTheAccumulator : Prop :=
  encode .crcrd = 0x300000 ∧
  (∀ s : State, exec .crcrd s = .next { s with responses := ⟨true, s.crc.setWidth 32⟩ :: s.responses }) ∧
  (∀ c : Byte, (c.setWidth 32 : Word).extractLsb' 8 24 = 0)

/-- 40_crc8.md R66: after `CRCINIT` the accumulator is the `crc8` of the bytes fed since, whatever other operations run
in between, and `CRCRD` answers it; and no operation outside the CRC unit is disturbed by what `CRC` holds. -/
def Obligations.StreamingCrcIsUndisturbed : Prop :=
  (∀ (ops : List Instr) (s t : State), Instr.crcinit ∉ ops → runOps (.crcinit :: ops) s = .next t →
    t.crc = crc8 (fedBytes ops) ∧
    exec .crcrd t = .next { t with responses := ⟨true, (crc8 (fedBytes ops)).setWidth 32⟩ :: t.responses }) ∧
  (∀ (i : Instr) (s : State) (c : Byte), i ≠ .crcinit → i ≠ .crcrd → (∀ b, i ≠ .crcb b) →
    exec i { s with crc := c } = mapNext (fun t => { t with crc := c }) (exec i s))

/-- 30_encoding.md R53: the pseudo-instruction `CRC8` completes from every state and answers the `crc8` of its bytes. -/
def Obligations.Crc8PseudoInstructionAnswersCrc8 : Prop :=
  ∀ (bs : List Byte) (s : State), ∃ t, runOps (crc8Ops bs) s = .next t ∧ t.crc = crc8 bs ∧
    t.responses.head? = some ⟨true, (crc8 bs).setWidth 32⟩

/-! ### The framer -/

/-- 41_framer.md R67: `FRAME c`, from every state and for every `c`. The next state is the old one but for `TX`, `TXV`
and the response. -/
def Obligations.FrameStoresHighByteFirst : Prop :=
  (∀ c : Half, encode (.frame c) = 0x400000 ||| c.setWidth 24) ∧
  ∀ (c : Half) (s : State), ∃ t, exec (.frame c) s = .next t ∧
    t.txAt 0 = c.extractLsb' 8 8 ∧ t.txAt 1 = c.extractLsb' 0 8 ∧
    t = { s with tx := t.tx, txv := true, responses := ⟨true, 0⟩ :: s.responses }

/-- 41_framer.md R69: `RDTX i` answers `TX[i]` and changes nothing but the response; with `TXV = 0` it is refused. -/
def Obligations.RdtxAnswersAFrameByte : Prop :=
  (∀ i : BitVec 1, encode (.rdtx i) = 0x500000 ||| i.setWidth 24) ∧
  (∀ (i : BitVec 1) (s : State), s.txv = true →
    exec (.rdtx i) s = .next { s with responses := ⟨true, (s.txAt i.toNat).setWidth 32⟩ :: s.responses }) ∧
  (∀ (i : BitVec 1) (s : State), s.txv = false → ∃ r, exec (.rdtx i) s = .refused r)

/-- 20_memory.md R34: byte reads and 16-bit values agree in big-endian order. `RDRX 0`, `1`, `3`, `4` answer the halves
of what `RDW 0`, `1` answer; `RDTX 0`, `1` answer the halves of the last `FRAME`'s operand, whatever runs in between
(as long as nothing clears `TXV`). -/
def Obligations.ByteReadsAgreeWithHalves : Prop :=
  (∀ s : State, Inv s → s.dv = true →
    exec (.rdw 0) s = .next { s with responses := ⟨true, s.w0.setWidth 32⟩ :: s.responses } ∧
    exec (.rdw 1) s = .next { s with responses := ⟨true, s.w1.setWidth 32⟩ :: s.responses } ∧
    exec (.rdrx 0) s = .next { s with responses := ⟨true, (s.w0.extractLsb' 8 8).setWidth 32⟩ :: s.responses } ∧
    exec (.rdrx 1) s = .next { s with responses := ⟨true, (s.w0.extractLsb' 0 8).setWidth 32⟩ :: s.responses } ∧
    exec (.rdrx 3) s = .next { s with responses := ⟨true, (s.w1.extractLsb' 8 8).setWidth 32⟩ :: s.responses } ∧
    exec (.rdrx 4) s = .next { s with responses := ⟨true, (s.w1.extractLsb' 0 8).setWidth 32⟩ :: s.responses }) ∧
  (∀ (c : Half) (ops : List Instr) (s t : State), (∀ d, Instr.frame d ∉ ops) → Instr.sopen ∉ ops →
    Instr.sclose ∉ ops → runOps (.frame c :: ops) s = .next t →
    exec (.rdtx 0) t = .next { t with responses := ⟨true, (c.extractLsb' 8 8).setWidth 32⟩ :: t.responses } ∧
    exec (.rdtx 1) t = .next { t with responses := ⟨true, (c.extractLsb' 0 8).setWidth 32⟩ :: t.responses })

/-! ### The parser -/

/-- 42_parser.md R71, 60_exceptions.md R93: `XFER` with a transport that answers success, with one that answers failure
(where `RX` is unspecified and nothing is said of it but its form), and out of precondition. Every field not named stays; `draws`,
the model's counter of free values, may move. -/
def Obligations.XferLoadsOrLosesTheResponse : Prop :=
  encode .xfer = 0x600000 ∧
  (∀ (s : State) (b : Vector Byte 18), s.ss ≠ .uninit → s.txv = true → s.transferAnswer = some (.ok b) →
    ∃ t, exec .xfer s = .next t ∧ (∀ (j : Nat) (h : j < 18), t.rxAt j = b[j]) ∧
      t = { s with
        rx := t.rx, ss := .opened, dv := false, wok := false, rxv := true, err := .noError,
        responses := ⟨true, 0⟩ :: s.responses, calls := .writeThenRead [s.txAt 0, s.txAt 1] 18 :: s.calls,
        transfers := s.transfers.tail, draws := t.draws }) ∧
  (∀ s : State, s.ss ≠ .uninit → s.txv = true → s.transferAnswer = some .fail →
    ∃ t, exec .xfer s = .next t ∧
      t = { s with
        rx := t.rx, ss := .opened, dv := false, wok := false, rxv := false, err := .transportError,
        responses := ⟨false, 0⟩ :: s.responses, calls := .writeThenRead [s.txAt 0, s.txAt 1] 18 :: s.calls,
        transfers := s.transfers.tail, draws := t.draws }) ∧
  (∀ s : State, s.ss = .uninit ∨ s.txv = false → ∃ r, exec .xfer s = .refused r)

/-- 42_parser.md R72: `RDRX j`, `j` in 0..17, answers `RX[j]` and changes nothing but the response; with `RXV = 0` it is
refused; `j` in 18..31 is no legal word. -/
def Obligations.RdrxAnswersAResponseByte : Prop :=
  (∀ j : BitVec 5, encode (.rdrx j) = 0x700000 ||| j.setWidth 24) ∧
  (∀ (j : BitVec 5) (s : State), j.toNat ≤ 17 → s.rxv = true →
    exec (.rdrx j) s = .next { s with responses := ⟨true, (s.rxAt j.toNat).setWidth 32⟩ :: s.responses }) ∧
  (∀ (j : BitVec 5) (s : State), s.rxv = false → ∃ r, exec (.rdrx j) s = .refused r) ∧
  (∀ j : BitVec 5, 18 ≤ j.toNat → ∃ why, decode (0x700000 ||| j.setWidth 24) = .error why)

/-- 42_parser.md R73, R74: `WCHK k`, `k` in 0..5, writes `WOK` with the validity of word `k` and answers it, changing
nothing else; with `RXV = 0` it is refused; `k` = 6, 7 is no legal word. -/
def Obligations.WchkTestsOneWord : Prop :=
  (∀ k : BitVec 3, encode (.wchk k) = 0x800000 ||| k.setWidth 24) ∧
  (∀ (k : BitVec 3) (s : State), k.toNat ≤ 5 → s.rxv = true →
    let ok := crc8 [s.rxAt (3 * k.toNat), s.rxAt (3 * k.toNat + 1)] == s.rxAt (3 * k.toNat + 2)
    exec (.wchk k) s =
      .next { s with wok := ok, responses := ⟨true, if ok then 1 else 0⟩ :: s.responses }) ∧
  (∀ (k : BitVec 3) (s : State), s.rxv = false → ∃ r, exec (.wchk k) s = .refused r) ∧
  (∀ k : BitVec 3, 6 ≤ k.toNat → ∃ why, decode (0x800000 ||| k.setWidth 24) = .error why)

/-- 42_parser.md R75, 60_exceptions.md R94: `PARSE` decodes words 0 and 1 only if both are valid, raises `IntegrityError`
if one is not, and is refused with `RXV = 0`. Every field not named stays. -/
def Obligations.ParseDecodesOnlyValidWords : Prop :=
  encode .parse = 0x900000 ∧
  (∀ s : State, s.rxv = true → crc8 [s.rxAt 0, s.rxAt 1] = s.rxAt 2 → crc8 [s.rxAt 3, s.rxAt 4] = s.rxAt 5 →
    exec .parse s = .next { s with
      w0 := s.rxAt 0 ++ s.rxAt 1, w1 := s.rxAt 3 ++ s.rxAt 4, dv := true, err := .noError,
      responses := ⟨true, 0⟩ :: s.responses }) ∧
  (∀ s : State, s.rxv = true → crc8 [s.rxAt 0, s.rxAt 1] ≠ s.rxAt 2 ∨ crc8 [s.rxAt 3, s.rxAt 4] ≠ s.rxAt 5 →
    exec .parse s = .next { s with
      dv := false, ss := .opened, err := .integrityError, responses := ⟨false, 0⟩ :: s.responses }) ∧
  (∀ s : State, s.rxv = false → ∃ r, exec .parse s = .refused r)

/-- 42_parser.md R76: after a successful `PARSE` the product identifier is `(RX[0] << 24) | (RX[1] << 16) | (RX[3] << 8) |
RX[4]`, each byte zero-extended to 32 bits before it is shifted. -/
def Obligations.PidIsAssembledAroundTheCrcBytes : Prop :=
  ∀ s t : State, exec .parse s = .next t → t.dv = true →
    t.pid = ((s.rxAt 0).setWidth 32 <<< 24) ||| ((s.rxAt 1).setWidth 32 <<< 16) |||
      ((s.rxAt 3).setWidth 32 <<< 8) ||| (s.rxAt 4).setWidth 32

/-- 42_parser.md R78, 20_memory.md R30: bytes 6 to 17 of `RX` matter to no operation but the reads and tests of those
bytes; changing them changes no outcome. `XFER` does not even look at the old contents. -/
def Obligations.TailWordsMatterToNoOtherOperation : Prop :=
  (∀ (i : Instr) (s : State) (m : Memory), (∀ a, a < 6 → Memory.byteAt m a = s.rxAt a) → i ≠ .xfer →
    (∀ j : BitVec 5, i = .rdrx j → j.toNat < 6) → (∀ k : BitVec 3, i = .wchk k → k.toNat < 2) →
    exec i { s with rx := m } = mapNext (fun t => { t with rx := m }) (exec i s)) ∧
  (∀ (s : State) (m : Memory), exec .xfer { s with rx := m } = exec .xfer s)

/-- 42_parser.md R79: `RDW i` answers `W[i]` and changes nothing but the response; with `DV = 0` it is refused. -/
def Obligations.RdwAnswersADecodedWord : Prop :=
  (∀ i : BitVec 1, encode (.rdw i) = 0xA00000 ||| i.setWidth 24) ∧
  (∀ (i : BitVec 1) (s : State), s.dv = true → exec (.rdw i) s =
    .next { s with responses := ⟨true, (if i = 0 then s.w0 else s.w1).setWidth 32⟩ :: s.responses }) ∧
  (∀ (i : BitVec 1) (s : State), s.dv = false → ∃ r, exec (.rdw i) s = .refused r)

/-- 42_parser.md R80: `RDPID` answers `W[0] ∥ W[1]` and changes nothing but the response; with `DV = 0` it is refused. -/
def Obligations.RdpidAnswersTheIdentifier : Prop :=
  encode .rdpid = 0xB00000 ∧
  (∀ s : State, s.dv = true →
    exec .rdpid s = .next { s with responses := ⟨true, s.w0 ++ s.w1⟩ :: s.responses }) ∧
  (∀ s : State, s.dv = false → ∃ r, exec .rdpid s = .refused r)

/-- 42_parser.md R77: `DV` is 1 after an operation only if that operation was a `PARSE` of two valid words, or `DV` was 1
before and the operation left `RX` and `W` alone. -/
def Obligations.OnlyParseMakesWordsReadable : Prop :=
  ∀ (i : Instr) (s t : State), exec i s = .next t → t.dv = true →
    (i = .parse ∧ s.rxv = true ∧ crc8 [s.rxAt 0, s.rxAt 1] = s.rxAt 2 ∧ crc8 [s.rxAt 3, s.rxAt 4] = s.rxAt 5 ∧
      t.w0 = s.rxAt 0 ++ s.rxAt 1 ∧ t.w1 = s.rxAt 3 ++ s.rxAt 4) ∨
    (s.dv = true ∧ t.rx = s.rx ∧ t.w0 = s.w0 ∧ t.w1 = s.w1)

/-! ### The session -/

/-- 43_session.md R81, 60_exceptions.md R92: `SOPEN` discards the session from every state and then takes the transport's
answer. Every field not named stays; `draws`, the model's counter of free values, may move. -/
def Obligations.SopenDiscardsThenAcquires : Prop :=
  encode .sopen = 0xD00000 ∧
  (∀ s : State, s.acquireAnswer = some .acquired →
    ∃ t, exec .sopen s = .next t ∧
      t = { s with
        ss := .opened, txv := false, rxv := false, dv := false, wok := false, err := .noError,
        responses := ⟨true, 0⟩ :: s.responses, calls := .acquire :: s.calls, acquires := s.acquires.tail,
        draws := t.draws }) ∧
  (∀ s : State, s.acquireAnswer = some .failed →
    ∃ t, exec .sopen s = .next t ∧
      t = { s with
        ss := .uninit, txv := false, rxv := false, dv := false, wok := false, err := .transportUnavailable,
        responses := ⟨false, 0⟩ :: s.responses, calls := .acquire :: s.calls, acquires := s.acquires.tail,
        draws := t.draws })

/-- 43_session.md R82: `SCLOSE` brings `ST` to 0x0000 from every state and changes nothing else but the response. -/
def Obligations.ScloseClearsTheStatus : Prop :=
  encode .sclose = 0xE00000 ∧
  ∀ s : State, ∃ t, exec .sclose s = .next t ∧ t.st = 0x0000 ∧
    t = { s with
      ss := .uninit, txv := false, rxv := false, dv := false, wok := false, err := .noError,
      responses := ⟨true, 0⟩ :: s.responses }

/-- 43_session.md R83, 60_exceptions.md R95: `IDCMP` compares all 32 bits of the identifier with the parameter. Every field not
named stays; with `DV = 0` it is refused. -/
def Obligations.IdcmpComparesAllBits : Prop :=
  encode .idcmp = 0xC00000 ∧
  (∀ s : State, s.dv = true → s.w0 ++ s.w1 = s.params.expectedProductId →
    exec .idcmp s =
      .next { s with ss := .ready, err := .noError, responses := ⟨true, 0⟩ :: s.responses }) ∧
  (∀ s : State, s.dv = true → s.w0 ++ s.w1 ≠ s.params.expectedProductId →
    exec .idcmp s =
      .next { s with ss := .opened, err := .identityMismatch, responses := ⟨false, 0⟩ :: s.responses }) ∧
  (∀ s : State, s.dv = false → ∃ r, exec .idcmp s = .refused r)

/-- 43_session.md R84, 10_state.md R20: `RDST` answers `ST`, laid out by the rule's formula, from every state; its reserved
bits are 0 and nothing changes but the response. The codes of `SS` are those of 10_state.md R13 and R16, and the codes of `ERR`
those of R19. -/
def Obligations.RdstAnswersTheStatusWord : Prop :=
  encode .rdst = 0x000000 ∧
  SessionState.uninit.code = 0 ∧ SessionState.opened.code = 1 ∧ SessionState.ready.code = 2 ∧
  ErrorCode.noError.code = 0 ∧ ErrorCode.transportUnavailable.code = 1 ∧ ErrorCode.transportError.code = 2 ∧
  ErrorCode.integrityError.code = 3 ∧ ErrorCode.identityMismatch.code = 4 ∧
  ∀ s : State, ∃ d : Word,
    exec .rdst s = .next { s with responses := ⟨true, d⟩ :: s.responses } ∧
    d = (s.err.code.setWidth 32 <<< 8) ||| ((if s.wok then 1 else 0) <<< 5) ||| ((if s.dv then 1 else 0) <<< 4) |||
      ((if s.rxv then 1 else 0) <<< 3) ||| ((if s.txv then 1 else 0) <<< 2) ||| s.ss.code.setWidth 32 ∧
    d.extractLsb' 11 21 = 0 ∧ d.extractLsb' 6 2 = 0 ∧ d = s.st.setWidth 32

/-- 43_session.md R85: the lifecycle table, with its refused and impossible cells, over all operations. -/
def Obligations.LifecycleFollowsTheTable : Prop :=
  (∀ (i : Instr) (s t : State), exec i s = .next t →
    (i = .sopen → (s.acquireAnswer = some .acquired → t.ss = .opened) ∧
      (s.acquireAnswer = some .failed → t.ss = .uninit)) ∧
    (i = .sclose → t.ss = .uninit) ∧
    (i = .xfer → t.ss = .opened) ∧
    (i = .parse → t.ss = if s.bothWordsValid then s.ss else .opened) ∧
    (i = .idcmp → t.ss = if s.identityMatches then .ready else .opened) ∧
    (i ∉ [.sopen, .sclose, .xfer, .parse, .idcmp] → t.ss = s.ss) ∧
    (t.ss = .ready → s.ss = .ready ∨ (i = .idcmp ∧ s.identityMatches = true)) ∧
    ((t.responses.head?.map Response.ok) = some false → t.ss ≠ .ready)) ∧
  (∀ s : State, s.ss = .uninit → ∃ r, exec .xfer s = .refused r) ∧
  (∀ s : State, Inv s → s.ss = .uninit →
    (∃ r, exec .parse s = .refused r) ∧ (∃ r, exec .idcmp s = .refused r)) ∧
  (∀ s : State, Inv s → s.ss = .ready → s.bothWordsValid = true ∧ s.identityMatches = true)

/-- 43_session.md R86, R87: the open sequence, from every state and for every pair of the transport's answers. It stops at
the first operation that answers `ok = 0`, in the state the rule's table gives, from which the next operation of the
sequence is refused; and it succeeds exactly when the session ends `READY`. -/
def Obligations.OpenSequenceEndsAsTheTableSays : Prop :=
  ∀ (s : State) (a : AcquireAnswer) (x : TransferAnswer), s.acquireAnswer = some a →
    ({ s with draws := drawsAfter s.acquires s.draws } : State).transferAnswer = some x →
    ∃ t, runOpen s = .next t ∧ (t.lastOk = true ↔ t.ss = .ready) ∧
    (a = .failed → t.lastOk = false ∧ t.ss = .uninit ∧ t.err = .transportUnavailable ∧
      t.calls = .acquire :: s.calls ∧ ∃ r, exec .xfer t = .refused r) ∧
    (a = .acquired →
      t.calls = .writeThenRead
        [s.params.cmdGetProductId.extractLsb' 8 8, s.params.cmdGetProductId.extractLsb' 0 8] 18 ::
        .acquire :: s.calls ∧
      (x = .fail → t.lastOk = false ∧ t.ss = .opened ∧ t.rxv = false ∧ t.err = .transportError ∧
        ∃ r, exec .parse t = .refused r) ∧
      (∀ b, x = .ok b → ¬(crc8 [b[0], b[1]] = b[2] ∧ crc8 [b[3], b[4]] = b[5]) →
        t.lastOk = false ∧ t.ss = .opened ∧ t.rxv = true ∧ t.dv = false ∧ t.err = .integrityError ∧
        ∃ r, exec .idcmp t = .refused r) ∧
      (∀ b, x = .ok b → crc8 [b[0], b[1]] = b[2] → crc8 [b[3], b[4]] = b[5] →
        t.pid = b[0] ++ b[1] ++ b[3] ++ b[4] ∧ t.dv = true ∧
        (t.pid ≠ s.params.expectedProductId →
          t.lastOk = false ∧ t.ss = .opened ∧ t.err = .identityMismatch) ∧
        (t.pid = s.params.expectedProductId →
          t.lastOk = true ∧ t.ss = .ready ∧ t.txv = true ∧ t.rxv = true ∧ t.err = .noError ∧
          t.txAt 0 = s.params.cmdGetProductId.extractLsb' 8 8 ∧
          t.txAt 1 = s.params.cmdGetProductId.extractLsb' 0 8)))

/-- 43_session.md R88: in an open session that still holds its frame, the verification can be retried alone; with a valid
response that carries the expected identifier it ends `READY`, and the frame is still there. -/
def Obligations.VerificationCanBeRetried : Prop :=
  ∀ (s : State) (b : Vector Byte 18), s.ss ≠ .uninit → s.txv = true → s.transferAnswer = some (.ok b) →
    crc8 [b[0], b[1]] = b[2] → crc8 [b[3], b[4]] = b[5] → b[0] ++ b[1] ++ b[3] ++ b[4] = s.params.expectedProductId →
    ∃ t, runUntilError [.xfer, .parse, .idcmp] s = .next t ∧ t.ss = .ready ∧ t.err = .noError ∧ t.txv = true ∧
      t.tx = s.tx

/-- 43_session.md R88, 70_reset_and_hazards.md R112: once an `XFER` or an `SOPEN` has run, nothing decoded before can be
read or compared until a `PARSE` runs. -/
def Obligations.StaleWordsAreNeverRead : Prop :=
  ∀ (i : Instr) (ops : List Instr) (s t : State), i = .xfer ∨ i = .sopen ∨ i = .sclose → Instr.parse ∉ ops →
    runOps (i :: ops) s = .next t →
    (∀ k, ∃ r, exec (.rdw k) t = .refused r) ∧ (∃ r, exec .rdpid t = .refused r) ∧ (∃ r, exec .idcmp t = .refused r)

/-- 95_test_vectors.md section 1.4 (property 7 of §8), 42_parser.md R71: without a handle no transaction is attempted. As long
as no `SOPEN` runs, the core asks nothing of the transport and the session stays `UNINIT` (in states that meet the relations of
10_state.md R21). -/
def Obligations.NoTransactionWithoutAHandle : Prop :=
  ∀ (ops : List Instr) (s t : State), Inv s → s.ss = .uninit → Instr.sopen ∉ ops → runOps ops s = .next t →
    t.ss = .uninit ∧ t.calls = s.calls ∧ t.transfers = s.transfers

/-! ### Responses, errors, refusals -/

/-- 30_encoding.md R49: every operation that is not refused answers exactly once, and with the `data` the rule gives. -/
def Obligations.EveryOperationAnswersAsTabled : Prop :=
  ∀ (i : Instr) (s t : State), exec i s = .next t → ∃ ok data, t.responses = ⟨ok, data⟩ :: s.responses ∧
    (ok = false ↔ i ∈ [.sopen, .xfer, .parse, .idcmp] ∧ t.err = raisableError i) ∧
    (ok = false → data = 0) ∧
    (i = .rdst → data = s.st.setWidth 32) ∧
    (i = .crcrd → data = s.crc.setWidth 32) ∧
    (∀ k, i = .rdtx k → data = (s.txAt k.toNat).setWidth 32) ∧
    (∀ j, i = .rdrx j → data = (s.rxAt j.toNat).setWidth 32) ∧
    (∀ k, i = .rdw k → data = (s.wReg k).setWidth 32) ∧
    (i = .rdpid → data = s.w0 ++ s.w1) ∧
    (∀ k, i = .wchk k → data = if t.wok then 1 else 0) ∧
    (i ∈ [.crcinit, .xfer, .parse, .idcmp, .sopen, .sclose] → data = 0) ∧
    (∀ b, i = .crcb b → data = 0) ∧ (∀ c, i = .frame c → data = 0)

/-- 60_exceptions.md R91: `ok` and `ST.ERR`. -/
def Obligations.OkBitAgreesWithErr : Prop :=
  ∀ (i : Instr) (s t : State), exec i s = .next t → ∃ ok data, t.responses = ⟨ok, data⟩ :: s.responses ∧
    (sessionStep i = true →
      (ok = false ↔ t.err = raisableError i) ∧ (ok = true ↔ t.err = .noError)) ∧
    (sessionStep i = false → ok = true ∧ t.err = if i = .sclose then .noError else s.err)

/-- 60_exceptions.md R89, R90: the four errors, each with its one raiser, its cause and its code; the code
is 0 after a session-step operation that succeeds, after `SCLOSE` and after reset, and no other operation changes it. -/
def Obligations.ErrorsHaveTheirCauses : Prop :=
  (∀ (i : Instr) (s t : State), exec i s = .next t →
    ((t.responses.head?.map Response.ok) = some false ↔
      (i = .sopen ∧ s.acquireAnswer = some .failed) ∨
      (i = .xfer ∧ s.transferAnswer = some .fail) ∨
      (i = .parse ∧ (crc8 [s.rxAt 0, s.rxAt 1] ≠ s.rxAt 2 ∨ crc8 [s.rxAt 3, s.rxAt 4] ≠ s.rxAt 5)) ∨
      (i = .idcmp ∧ s.pid ≠ s.params.expectedProductId)) ∧
    ((t.responses.head?.map Response.ok) = some false →
      (i = .sopen → t.err.code = 1) ∧ (i = .xfer → t.err.code = 2) ∧ (i = .parse → t.err.code = 3) ∧
      (i = .idcmp → t.err.code = 4)) ∧
    ((t.responses.head?.map Response.ok) = some true → i ∈ [.sopen, .xfer, .parse, .idcmp, .sclose] →
      t.err.code = 0) ∧
    (i ∉ [.sopen, .xfer, .parse, .idcmp, .sclose] → t.err.code = s.err.code)) ∧
  State.reset.err.code = 0 ∧ (∀ e : ErrorCode, e.code.toNat ≤ 4)

/-- 70_reset_and_hazards.md R111, 60_exceptions.md R99: a legal operation is refused exactly when its precondition, read off
the rule's table, does not hold; where it holds and the transport answers what is asked of it, the operation completes. -/
def Obligations.RefusedExactlyWhenThePreconditionFails : Prop :=
  ∀ (i : Instr) (s : State), i.wellFormed = true →
    ((∃ r, exec i s = .refused r) ↔ ¬ precondition i s) ∧
    (precondition i s → transportAnswers i s → ∃ t, exec i s = .next t)

/-- 60_exceptions.md R103: an `SOPEN` or an `XFER` that the transport never answers does not complete. That the model stops
with a fault there is its choice (log entry 4). -/
def Obligations.SilentTransportLeavesNoNextState : Prop :=
  (∀ s : State, s.acquireAnswer = none → exec .sopen s = .fault .transportSilent) ∧
  (∀ s : State, s.ss ≠ .uninit → s.txv = true → s.transferAnswer = none → exec .xfer s = .fault .transportSilent)

/-- 20_memory.md R28: an address outside `RX` does not exist, and no operation can form one: no request word decodes to an
operand that names one. A term that does stops with the model's fault (log entry 9). -/
def Obligations.OperandsOutsideTheBufferStop : Prop :=
  (∀ (w : ReqWord) (j : BitVec 5), 18 ≤ j.toNat → decode w ≠ .ok (.rdrx j)) ∧
  (∀ (w : ReqWord) (k : BitVec 3), 6 ≤ k.toNat → decode w ≠ .ok (.wchk k)) ∧
  (∀ (j : BitVec 5) (s : State), 18 ≤ j.toNat → s.rxv = true →
    exec (.rdrx j) s = .fault (.noSuchAddress .rx j.toNat)) ∧
  (∀ (k : BitVec 3) (s : State), 6 ≤ k.toNat → s.rxv = true →
    exec (.wchk k) s = .fault (.noSuchAddress .rx (3 * k.toNat)))

/-! ### Rules of the whole machine -/

/-- 10_state.md R8 to R19 say of each register which operations write it. Here that, over all operations: a register, a flag, a byte of a
buffer, or one of the model's own fields that none of the listed operations names is unchanged. -/
def Obligations.OnlyTheListedOperationsWrite : Prop :=
  ∀ (i : Instr) (s t : State), exec i s = .next t →
    (i ≠ .crcinit → (∀ b, i ≠ .crcb b) → t.crc = s.crc) ∧
    ((∀ c, i ≠ .frame c) → ∀ a, t.txAt a = s.txAt a) ∧
    (i ≠ .xfer → ∀ a, t.rxAt a = s.rxAt a) ∧
    (i ≠ .parse → t.w0 = s.w0 ∧ t.w1 = s.w1) ∧
    (i ∉ [.sopen, .sclose, .xfer, .parse, .idcmp] → t.ss = s.ss) ∧
    ((∀ c, i ≠ .frame c) → i ≠ .sopen → i ≠ .sclose → t.txv = s.txv) ∧
    (i ∉ [.xfer, .sopen, .sclose] → t.rxv = s.rxv) ∧
    (i ∉ [.parse, .xfer, .sopen, .sclose] → t.dv = s.dv) ∧
    ((∀ k, i ≠ .wchk k) → i ∉ [.xfer, .sopen, .sclose] → t.wok = s.wok) ∧
    (i ∉ [.sopen, .xfer, .parse, .idcmp, .sclose] → t.err = s.err) ∧
    (i ∉ [.sopen, .xfer] → t.calls = s.calls ∧ t.draws = s.draws) ∧
    (i ≠ .sopen → t.acquires = s.acquires) ∧ (i ≠ .xfer → t.transfers = s.transfers) ∧
    t.inputs = s.inputs ∧ t.params = s.params

/-- 20_memory.md R38: no read has a side effect, and the reads, `WCHK` and `PARSE` are idempotent. -/
def Obligations.ReadsHaveNoSideEffect : Prop :=
  (∀ (i : Instr) (s t : State),
    i = .rdst ∨ i = .crcrd ∨ (∃ k, i = .rdtx k) ∨ (∃ j, i = .rdrx j) ∨ (∃ k, i = .rdw k) ∨ i = .rdpid →
    exec i s = .next t → ∃ d, t = { s with responses := ⟨true, d⟩ :: s.responses } ∧
      exec i t = .next { s with responses := ⟨true, d⟩ :: ⟨true, d⟩ :: s.responses }) ∧
  (∀ (k : BitVec 3) (s t : State), exec (.wchk k) s = .next t → ∃ d,
    t = { s with wok := t.wok, responses := d :: s.responses } ∧
    exec (.wchk k) t = .next { t with responses := d :: t.responses }) ∧
  (∀ s t : State, exec .parse s = .next t → t.rx = s.rx ∧ ∃ d,
    t.responses = d :: s.responses ∧ exec .parse t = .next { t with responses := d :: t.responses })

/-- 10_state.md R21: every step keeps the relations of the rule, from every state in which they hold; and the codes in `ST`
stay in their ranges. -/
def Obligations.EveryStepKeepsTheStateRelations : Prop :=
  (∀ s t : State, Inv s → step s = .next t → Inv t) ∧
  (∀ s : State, s.st.extractLsb' 0 2 ≠ 3 ∧ (s.st.extractLsb' 8 3).toNat ≤ 4)

/-- 10_state.md R21 at the start: the relations hold in every launch state, State.reset among them. -/
def Obligations.LaunchStatesMeetTheStateRelations : Prop :=
  Launch State.reset ∧ ∀ s : State, Launch s → Inv s

/-- 20_memory.md R28, in the model's representation (log entry 6): every step keeps both buffers in canonical form, with no address outside its
space, and State.reset has it. -/
def Obligations.EveryStepKeepsBuffersCanonical : Prop :=
  BuffersCanonical State.reset ∧
  ∀ s t : State, BuffersCanonical s → step s = .next t → BuffersCanonical t

/-- 70_reset_and_hazards.md R107, R109: in every launch state `RDST` answers 0 and `CRCRD` answers `crc8([])`; the CRC operations, `FRAME`, `RDST`,
`SCLOSE` and `SOPEN` are legal, and everything that could read an unspecified bit is refused. A reset by the host makes a launch state of any state
(the model's way to a reset, log entry 13). -/
def Obligations.LaunchStatesReadNothingUnspecified : Prop :=
  (∀ s : State, Launch s →
    exec .rdst s = .next { s with responses := ⟨true, 0⟩ :: s.responses } ∧
    exec .crcrd s = .next { s with responses := ⟨true, 0xFF⟩ :: s.responses } ∧
    (∀ k, ∃ r, exec (.rdtx k) s = .refused r) ∧ (∃ r, exec .xfer s = .refused r) ∧
    (∀ j, ∃ r, exec (.rdrx j) s = .refused r) ∧ (∀ k, ∃ r, exec (.wchk k) s = .refused r) ∧
    (∃ r, exec .parse s = .refused r) ∧ (∀ k, ∃ r, exec (.rdw k) s = .refused r) ∧
    (∃ r, exec .rdpid s = .refused r) ∧ (∃ r, exec .idcmp s = .refused r) ∧
    (∀ b, ∃ t, exec (.crcb b) s = .next t) ∧ (∃ t, exec .crcinit s = .next t) ∧
    (∀ c, ∃ t, exec (.frame c) s = .next t) ∧ (∃ t, exec .sclose s = .next t) ∧
    (transportAnswers .sopen s → ∃ t, exec .sopen s = .next t)) ∧
  (∀ (s : State) (xs : List HostInput), s.inputs = .reset :: xs →
    ∃ t, step s = .next t ∧ Launch t ∧ t.inputs = xs ∧ t.params = s.params)

/-- 10_state.md R24: the parameters are fixed for the life of the core; no step changes them. -/
def Obligations.NoStepChangesTheParameters : Prop :=
  ∀ s t : State, step s = .next t → t.params = s.params
end

