-- ==== Sys2Proof/Laws/Crc.lean ====
section
/-! SUPPORT. Small laws of the CRC-8 function (40_crc8.md R57, R58). -/

namespace Sys2Proof.Machine

/-- What a shift iteration XORs in: the polynomial when the bit shifted out is 1. -/
theorem crcShift_eq (a : Byte) : crcShift a = (a <<< 1) ^^^ (if a.getLsbD 7 then Config.crcPoly else 0) := by
  unfold crcShift
  split <;> simp

/-- A shift iteration is linear over XOR. -/
theorem crcShift_xor (x y : Byte) : crcShift (x ^^^ y) = crcShift x ^^^ crcShift y := by
  have sel : ∀ p q : Bool, (if (p ^^ q) = true then Config.crcPoly else 0) =
      (if p = true then Config.crcPoly else 0) ^^^ (if q = true then Config.crcPoly else (0 : Byte)) := by decide
  rw [crcShift_eq, crcShift_eq, crcShift_eq, BitVec.getLsbD_xor, sel, BitVec.shiftLeft_xor_distrib]
  ac_rfl

/-- `crc8` of one more byte is one more byte step (40_crc8.md R58). -/
theorem crc8_concat (s : List Byte) (b : Byte) : crc8 (s ++ [b]) = crcStep (crc8 s) b := by
  simp [crc8, List.foldl_append]

theorem crc8_nil : crc8 [] = Config.crcInit := rfl

theorem crc8_pair (b0 b1 : Byte) : crc8 [b0, b1] = crcStep (crcStep Config.crcInit b0) b1 := rfl

end Sys2Proof.Machine
end

