-- ==== Sys2Proof/Laws/Outcome.lean ====
section
/-! SUPPORT. What each shared operation and each meaning can answer, said once: later proofs cite these and do not
unfold a meaning. -/

namespace Sys2Proof.Machine

variable {s t : State}

/-! ### Preconditions and addresses -/

theorem require_of {c : Bool} (h : c = true) (r : Refusal) (k : Host.Outcome State Fault Refusal) :
    require c r k = k := by simp [require, h]

theorem require_of_not {c : Bool} (h : c = false) (r : Refusal) (k : Host.Outcome State Fault Refusal) :
    require c r k = .refused r := by simp [require, h]

/-- A precondition lets through exactly when it holds. -/
theorem require_next {c : Bool} {r : Refusal} {k : Host.Outcome State Fault Refusal} :
    require c r k = .next t ↔ c = true ∧ k = .next t := by
  cases c <;> simp [require]

theorem checkAddr_of {sp : Space} {a n : Nat} (h : a + n ≤ sp.size) (k : Host.Outcome State Fault Refusal) :
    checkAddr sp a n k = k := by simp [checkAddr, h]

theorem checkAddr_of_not {sp : Space} {a n : Nat} (h : ¬ a + n ≤ sp.size) (k : Host.Outcome State Fault Refusal) :
    checkAddr sp a n k = .fault (.noSuchAddress sp a) := by simp [checkAddr, h]

/-- An access goes through exactly when its addresses exist. -/
theorem checkAddr_next {sp : Space} {a n : Nat} {k : Host.Outcome State Fault Refusal} :
    checkAddr sp a n k = .next t ↔ a + n ≤ sp.size ∧ k = .next t := by
  by_cases h : a + n ≤ sp.size <;> simp [checkAddr, h]

theorem hasHandle_iff : s.hasHandle = true ↔ s.ss ≠ .uninit := by simp [State.hasHandle]

/-! ### The identity comparison and word validity -/

theorem dataWordValid_iff {hi lo c : Byte} : dataWordValid hi lo c = true ↔ crc8 [hi, lo] = c := by
  simp [dataWordValid]

/-- `PARSE`'s condition, read off the six bytes it looks at (20_memory.md R36). -/
theorem bothWordsValid_iff : s.bothWordsValid = true ↔
    crc8 [s.rxAt 0, s.rxAt 1] = s.rxAt 2 ∧ crc8 [s.rxAt 3, s.rxAt 4] = s.rxAt 5 := by
  simp [State.bothWordsValid, State.wordValid, dataWordValid_iff, wordAddr, Config.wordStride]

theorem identityMatches_iff : s.identityMatches = true ↔ s.pid = s.params.expectedProductId := by
  simp [State.identityMatches]

/-! ### What each meaning answers -/

/-- All that `RDTX i` can answer as a next state. -/
theorem execRdtx_next {i : BitVec 1} : execRdtx i s = .next t ↔
    s.txv = true ∧ t = s.answer true (zextByte (s.txAt i.toNat)) := by
  have : txIndex i + 1 ≤ Space.tx.size := by
    have := i.isLt
    simp only [txIndex, Space.size, Config.cmdBytes]
    omega
  rw [execRdtx, require_next, checkAddr_next]
  constructor
  · rintro ⟨h, -, e⟩
    exact ⟨h, (Host.Outcome.next.inj e).symm⟩
  · rintro ⟨h, rfl⟩
    exact ⟨h, this, rfl⟩

/-- All that `RDRX j` can answer as a next state. -/
theorem execRdrx_next {j : BitVec 5} : execRdrx j s = .next t ↔
    s.rxv = true ∧ j.toNat ≤ 17 ∧ t = s.answer true (zextByte (s.rxAt j.toNat)) := by
  have : rxIndex j + 1 ≤ Space.rx.size ↔ j.toNat ≤ 17 := by
    simp only [rxIndex, Space.size, Config.respLen]
    omega
  rw [execRdrx, require_next, checkAddr_next, this]
  refine and_congr_right fun _ => and_congr_right fun _ => ?_
  rw [Host.Outcome.next.injEq, eq_comm]
  rfl

/-- All that `WCHK k` can answer as a next state. -/
theorem execWchk_next {k : BitVec 3} : execWchk k s = .next t ↔
    s.rxv = true ∧ k.toNat ≤ 5 ∧
      t = State.answer { s with wok := s.wordValid k.toNat } true (zextFlag (s.wordValid k.toNat)) := by
  have : wordAddr (wordIndex k) + Config.wordStride ≤ Space.rx.size ↔ k.toNat ≤ 5 := by
    simp only [wordAddr, wordIndex, Space.size, Config.respLen, Config.wordStride]
    omega
  rw [execWchk, require_next, checkAddr_next, this]
  refine and_congr_right fun _ => and_congr_right fun _ => ?_
  rw [Host.Outcome.next.injEq, eq_comm]
  rfl

/-- All that `XFER` can answer as a next state. -/
theorem execXfer_next : execXfer s = .next t ↔
    s.ss ≠ .uninit ∧ s.txv = true ∧
      ∃ a, s.transferAnswer = some a ∧ t = s.beginTransfer.askTransfer.endTransfer a := by
  simp only [execXfer, require_next, hasHandle_iff]
  refine and_congr_right fun _ => and_congr_right fun _ => ?_
  cases s.transferAnswer with
  | none => simp
  | some a => simp [eq_comm]

/-- All that `PARSE` can answer as a next state. -/
theorem execParse_next : execParse s = .next t ↔
    s.rxv = true ∧ ((s.bothWordsValid = true ∧ t = s.decodeWords.succeed) ∨
      (s.bothWordsValid = false ∧ t = State.raise { s with dv := false, ss := .opened } .integrityError)) := by
  simp only [execParse, require_next]
  refine and_congr_right fun _ => ?_
  cases s.bothWordsValid <;> simp [eq_comm]

/-- All that `RDW i` can answer as a next state. -/
theorem execRdw_next {i : BitVec 1} : execRdw i s = .next t ↔
    s.dv = true ∧ t = s.answer true (zextHalf (s.wReg i)) := by
  rw [execRdw, require_next, Host.Outcome.next.injEq, eq_comm (a := s.answer true _)]

/-- All that `RDPID` can answer as a next state. -/
theorem execRdpid_next : execRdpid s = .next t ↔ s.dv = true ∧ t = s.answer true s.pid := by
  rw [execRdpid, require_next, Host.Outcome.next.injEq, eq_comm (a := s.answer true _)]

/-- All that `IDCMP` can answer as a next state. -/
theorem execIdcmp_next : execIdcmp s = .next t ↔
    s.dv = true ∧ ((s.identityMatches = true ∧ t = State.succeed { s with ss := .ready }) ∨
      (s.identityMatches = false ∧ t = State.raise { s with ss := .opened } .identityMismatch)) := by
  simp only [execIdcmp, require_next]
  refine and_congr_right fun _ => ?_
  cases s.identityMatches <;> simp [eq_comm]

/-- All that `SOPEN` can answer as a next state. -/
theorem execSopen_next : execSopen s = .next t ↔
    ∃ a, s.acquireAnswer = some a ∧ t = s.discardSession.askAcquire.endAcquire a := by
  simp only [execSopen]
  cases s.acquireAnswer with
  | none => simp
  | some a => simp [eq_comm]

/-! ### The step -/

/-- All that a step can answer as a next state. -/
theorem step_next : step s = .next t ↔
    (s.inputs = [] ∧ t = s) ∨
    (∃ xs, s.inputs = .reset :: xs ∧ t = ({ s with inputs := xs } : State).hostReset) ∨
    (∃ w xs i, s.inputs = .request w :: xs ∧ decode w = .ok i ∧ exec i { s with inputs := xs } = .next t) := by
  unfold step State.takeInput
  cases hs : s.inputs with
  | nil =>
    constructor
    · exact fun h => .inl ⟨rfl, (Host.Outcome.next.inj h).symm⟩
    · rintro (⟨-, rfl⟩ | ⟨xs, h, -⟩ | ⟨w, xs, i, h, -⟩)
      · rfl
      · cases h
      · cases h
  | cons x xs =>
    cases x with
    | reset =>
      constructor
      · exact fun h => .inr (.inl ⟨xs, rfl, (Host.Outcome.next.inj h).symm⟩)
      · rintro (⟨h, -⟩ | ⟨ys, h, rfl⟩ | ⟨w, ys, i, h, -⟩)
        · cases h
        · cases h; rfl
        · cases h
    | request w =>
      cases hd : decode w with
      | error why =>
        constructor
        · intro h
          simp only [hd] at h
          cases h
        · rintro (⟨h, -⟩ | ⟨ys, h, -⟩ | ⟨v, ys, i, h, hv, -⟩)
          · cases h
          · cases h
          · cases h
            rw [hd] at hv
            cases hv
      | ok i =>
        constructor
        · intro h
          simp only [hd] at h
          exact .inr (.inr ⟨w, xs, i, rfl, hd, h⟩)
        · rintro (⟨h, -⟩ | ⟨ys, h, -⟩ | ⟨v, ys, j, h, hv, he⟩)
          · cases h
          · cases h
          · cases h
            rw [hd] at hv
            cases hv
            simp only [hd]
            exact he

end Sys2Proof.Machine
end

