-- ==== Sys2Proof/Laws/Exec.lean ====
section
/-! SUPPORT. One case analysis over all operations, and how sequences and runs unfold. -/

namespace Sys2Proof.Machine

/-- All that any operation can answer as a next state, one case per end of an operation. A rule about every
operation is proved by giving its seventeen cases. -/
theorem exec_next_cases {P : Instr → State → State → Prop}
  (h0 : ∀ s, P .rdst s (s.answer true (zextHalf s.st)))
  (h1 : ∀ s, P .crcinit s (State.answer { s with crc := Config.crcInit } true 0))
  (h2 : ∀ b s, P (.crcb b) s (State.answer { s with crc := crcStep s.crc b } true 0))
  (h3 : ∀ s, P .crcrd s (s.answer true (zextByte s.crc)))
  (h4 : ∀ c s, P (.frame c) s ((s.loadFrame c).answer true 0))
  (h5 : ∀ i s, s.txv = true → P (.rdtx i) s (s.answer true (zextByte (s.txAt i.toNat))))
  (h6 : ∀ s a, s.ss ≠ .uninit → s.txv = true → s.transferAnswer = some a → P .xfer s (s.beginTransfer.askTransfer.endTransfer a))
  (h7 : ∀ j s, s.rxv = true → j.toNat ≤ 17 → P (.rdrx j) s (s.answer true (zextByte (s.rxAt j.toNat))))
  (h8 : ∀ k s, s.rxv = true → k.toNat ≤ 5 → P (.wchk k) s (State.answer { s with wok := s.wordValid k.toNat } true (zextFlag (s.wordValid k.toNat))))
  (h9 : ∀ s, s.rxv = true → s.bothWordsValid = true → P .parse s s.decodeWords.succeed)
  (h9' : ∀ s, s.rxv = true → s.bothWordsValid = false → P .parse s (State.raise { s with dv := false, ss := .opened } .integrityError))
  (hA : ∀ i s, s.dv = true → P (.rdw i) s (s.answer true (zextHalf (s.wReg i))))
  (hB : ∀ s, s.dv = true → P .rdpid s (s.answer true s.pid))
  (hC : ∀ s, s.dv = true → s.identityMatches = true → P .idcmp s (State.succeed { s with ss := .ready }))
  (hC' : ∀ s, s.dv = true → s.identityMatches = false → P .idcmp s (State.raise { s with ss := .opened } .identityMismatch))
  (hD : ∀ s a, s.acquireAnswer = some a → P .sopen s (s.discardSession.askAcquire.endAcquire a))
  (hE : ∀ s, P .sclose s s.discardSession.succeed) :
  ∀ i s t, exec i s = .next t → P i s t := by
  intro i s t h
  cases i with
  | rdst => cases h; exact h0 s
  | crcinit => cases h; exact h1 s
  | crcb b => cases h; exact h2 b s
  | crcrd => cases h; exact h3 s
  | frame c => cases h; exact h4 c s
  | rdtx i => obtain ⟨k, rfl⟩ := execRdtx_next.1 h; exact h5 _ _ k
  | xfer => obtain ⟨k, h', a, ha, rfl⟩ := execXfer_next.1 h; exact h6 _ _ k h' ha
  | rdrx j => obtain ⟨k, h', rfl⟩ := execRdrx_next.1 h; exact h7 _ _ k h'
  | wchk n => obtain ⟨k, h', rfl⟩ := execWchk_next.1 h; exact h8 _ _ k h'
  | parse => obtain ⟨k, ⟨h', rfl⟩ | ⟨h', rfl⟩⟩ := execParse_next.1 h; exacts [h9 _ k h', h9' _ k h']
  | rdw i => obtain ⟨k, rfl⟩ := execRdw_next.1 h; exact hA _ _ k
  | rdpid => obtain ⟨k, rfl⟩ := execRdpid_next.1 h; exact hB _ k
  | idcmp => obtain ⟨k, ⟨h', rfl⟩ | ⟨h', rfl⟩⟩ := execIdcmp_next.1 h; exacts [hC _ k h', hC' _ k h']
  | sopen => obtain ⟨a, ha, rfl⟩ := execSopen_next.1 h; exact hD _ _ ha
  | sclose => cases h; exact hE s

/-! ### Sequences -/

/-- A sequence goes through exactly when its first operation does and the rest does from there. -/
theorem runOps_cons_next {i : Instr} {is : List Instr} {s u : State} :
    runOps (i :: is) s = .next u ↔ ∃ t, exec i s = .next t ∧ runOps is t = .next u := by
  simp only [runOps]
  cases h : exec i s <;> simp

/-- The host goes on after a response exactly when its `ok` is 1 (43_session.md R86). -/
theorem runUntilError_cons {i : Instr} {is : List Instr} {s u : State} (h : exec i s = .next u) :
    runUntilError (i :: is) s = if u.lastOk then runUntilError is u else .next u := by
  simp [runUntilError, h]

/-- The bytes a sequence feeds, one operation at a time. -/
theorem fedBytes_cons (i : Instr) (is : List Instr) : fedBytes (i :: is) = fedBytes [i] ++ fedBytes is := by
  cases i <;> rfl

/-! ### Runs of the host's interface -/

theorem core_run_zero (s : State) : Sys2Proof.core.run 0 s = .next s := rfl

theorem run_succ_next {M : Host.Core} {s t : M.State} (h : M.step s = .next t) (n : Nat) :
    M.run (n + 1) s = M.run n t := by
  rw [Host.Core.run, h]

theorem run_succ_fault {M : Host.Core} {s : M.State} {r : M.Fault} (h : M.step s = .fault r) (n : Nat) :
    M.run (n + 1) s = .fault r := by
  rw [Host.Core.run, h]

theorem run_succ_refused {M : Host.Core} {s : M.State} {r : M.Refusal} (h : M.step s = .refused r) (n : Nat) :
    M.run (n + 1) s = .refused r := by
  rw [Host.Core.run, h]

theorem core_run_next {s t : State} (h : step s = .next t) (n : Nat) :
    Sys2Proof.core.run (n + 1) s = Sys2Proof.core.run n t := run_succ_next (M := Sys2Proof.core) h n

theorem core_run_fault {s : State} {r : Fault} (h : step s = .fault r) (n : Nat) :
    Sys2Proof.core.run (n + 1) s = .fault r := run_succ_fault (M := Sys2Proof.core) h n

theorem core_run_refused {s : State} {r : Refusal} (h : step s = .refused r) (n : Nat) :
    Sys2Proof.core.run (n + 1) s = .refused r := run_succ_refused (M := Sys2Proof.core) h n

end Sys2Proof.Machine
end

