-- ==== Sys2Proof/Laws/Memory.lean ====
section
/-! SUPPORT. The laws of the buffers' memory: what a read finds after a write, that every operation keeps the
canonical form, and that canonical memories which read alike are equal. -/

namespace Sys2Proof.Machine

/-- Canonical, whatever the size of the space: addresses strictly rising, no entry equal to the unwritten byte. -/
def Memory.Canonical (m : Memory) : Prop :=
  m.Pairwise (fun x y => x.1 < y.1) ∧ ∀ c ∈ m, c.2 ≠ Config.unwrittenByte

theorem Memory.wf_iff (sp : Space) (m : Memory) :
    Memory.wf sp m = true ↔ Memory.Canonical m ∧ ∀ c ∈ m, c.1 < sp.size := by
  simp only [Memory.wf, Memory.Canonical, Bool.and_eq_true, decide_eq_true_eq, List.all_eq_true]
  exact ⟨fun ⟨h, k⟩ => ⟨⟨h, fun c hc => (k c hc).2⟩, fun c hc => (k c hc).1⟩,
    fun ⟨⟨h, k⟩, l⟩ => ⟨h, fun c hc => ⟨l c hc, k c hc⟩⟩⟩

/-- An address that is not listed reads as the unwritten byte. -/
theorem Memory.byteAt_of_not_listed {m : Memory} {a : Nat} (h : ∀ c ∈ m, c.1 ≠ a) :
    Memory.byteAt m a = Config.unwrittenByte := by
  induction m with
  | nil => rfl
  | cons c m ih =>
    simp only [Memory.byteAt, if_neg (h c (by simp)).symm]
    exact ih fun d hd => h d (by simp [hd])

theorem Memory.byteAt_of_all_above {m : Memory} {a : Nat} (h : ∀ c ∈ m, a < c.1) :
    Memory.byteAt m a = Config.unwrittenByte :=
  Memory.byteAt_of_not_listed fun c hc => Nat.ne_of_gt (h c hc)

theorem Memory.byteAt_put {m : Memory} {a : Nat} (h : ∀ c ∈ m, a < c.1) (b : Byte) (x : Nat) :
    Memory.byteAt (Memory.put a b m) x = if x = a then b else Memory.byteAt m x := by
  unfold Memory.put
  by_cases hb : b = Config.unwrittenByte
  · rw [if_pos hb]
    by_cases hx : x = a
    · rw [if_pos hx, hx, Memory.byteAt_of_all_above h, hb]
    · rw [if_neg hx]
  · rw [if_neg hb]; rfl

/-- Read after write: the stored address reads the stored byte, every other address reads as before. -/
theorem Memory.byteAt_store {m : Memory} (h : Memory.Canonical m) (a : Nat) (b : Byte) (x : Nat) :
    Memory.byteAt (Memory.store m a b) x = if x = a then b else Memory.byteAt m x := by
  induction m with
  | nil => exact Memory.byteAt_put (by simp) b x
  | cons c m ih =>
    obtain ⟨hp, hz⟩ := h
    rw [List.pairwise_cons] at hp
    have hm : Memory.Canonical m := ⟨hp.2, fun d hd => hz d (by simp [hd])⟩
    simp only [Memory.store]
    split
    · next hlt =>
      exact Memory.byteAt_put (by
        intro d hd
        rcases List.mem_cons.1 hd with rfl | hd
        · exact hlt
        · exact Nat.lt_trans hlt (hp.1 d hd)) b x
    · split
      · next heq =>
        rw [Memory.byteAt_put (heq ▸ hp.1) b x, Memory.byteAt, heq]
        split <;> rfl
      · next hne =>
        simp only [Memory.byteAt, ih hm]
        by_cases hx : x = c.1
        · rw [if_pos hx, if_neg (by omega), if_pos hx]
        · rw [if_neg hx, if_neg hx]

theorem Memory.mem_put {a : Nat} {b : Byte} {m : Memory} {c : Host.Cell} (h : c ∈ Memory.put a b m) :
    (c = (a, b) ∧ b ≠ Config.unwrittenByte) ∨ c ∈ m := by
  unfold Memory.put at h
  split at h
  · exact .inr h
  · next hb =>
    rcases List.mem_cons.1 h with h | h
    · exact .inl ⟨h, hb⟩
    · exact .inr h

theorem Memory.canonical_put {m : Memory} {a : Nat} (hm : Memory.Canonical m) (h : ∀ c ∈ m, a < c.1) (b : Byte) :
    Memory.Canonical (Memory.put a b m) := by
  refine ⟨?_, ?_⟩
  · unfold Memory.put
    split
    · exact hm.1
    · exact List.pairwise_cons.2 ⟨h, hm.1⟩
  · intro c hc
    rcases Memory.mem_put hc with ⟨rfl, hb⟩ | hc
    · exact hb
    · exact hm.2 c hc

theorem Memory.mem_store {m : Memory} {a : Nat} {b : Byte} {c : Host.Cell} (h : c ∈ Memory.store m a b) :
    c = (a, b) ∨ c ∈ m := by
  induction m with
  | nil => exact (Memory.mem_put h).imp And.left id
  | cons d m ih =>
    simp only [Memory.store] at h
    split at h
    · exact (Memory.mem_put h).imp And.left id
    · split at h
      · exact (Memory.mem_put h).imp And.left (List.mem_cons_of_mem _)
      · rcases List.mem_cons.1 h with h | h
        · exact .inr (by simp [h])
        · exact (ih h).imp id (List.mem_cons_of_mem _)

theorem Memory.canonical_store {m : Memory} (h : Memory.Canonical m) (a : Nat) (b : Byte) :
    Memory.Canonical (Memory.store m a b) := by
  induction m with
  | nil => exact Memory.canonical_put h (by simp) b
  | cons c m ih =>
    have hp := List.pairwise_cons.1 h.1
    have hm : Memory.Canonical m := ⟨hp.2, fun d hd => h.2 d (by simp [hd])⟩
    simp only [Memory.store]
    split
    · next hlt =>
      exact Memory.canonical_put h (by
        intro d hd
        rcases List.mem_cons.1 hd with rfl | hd
        · exact hlt
        · exact Nat.lt_trans hlt (hp.1 d hd)) b
    · split
      · next heq => exact Memory.canonical_put hm (heq ▸ hp.1) b
      · next hlt hne =>
        refine ⟨List.pairwise_cons.2 ⟨fun d hd => ?_, (ih hm).1⟩, fun d hd => ?_⟩
        · rcases Memory.mem_store hd with rfl | hd
          · show c.1 < a
            omega
          · exact hp.1 d hd
        · rcases List.mem_cons.1 hd with hd | hd
          · exact h.2 d (by rw [hd]; simp)
          · exact (ih hm).2 d hd

theorem Memory.canonical_storeBytes {m : Memory} (h : Memory.Canonical m) (a : Nat) (bs : List Byte) :
    Memory.Canonical (Memory.storeBytes m a bs) := by
  induction bs generalizing m a with
  | nil => exact h
  | cons b bs ih => exact ih (Memory.canonical_store h a b) (a + 1)

theorem Memory.mem_storeBytes {m : Memory} {a : Nat} {bs : List Byte} {c : Host.Cell}
    (h : c ∈ Memory.storeBytes m a bs) : (a ≤ c.1 ∧ c.1 < a + bs.length) ∨ c ∈ m := by
  induction bs generalizing m a with
  | nil => exact .inr h
  | cons b bs ih =>
    rcases ih h with h | h
    · exact .inl (by simp only [List.length_cons]; omega)
    · rcases Memory.mem_store h with rfl | h
      · exact .inl (by simp)
      · exact .inr h

/-- What a read finds after bytes are stored at consecutive addresses. -/
theorem Memory.byteAt_storeBytes {m : Memory} (h : Memory.Canonical m) (a : Nat) (bs : List Byte) (x : Nat) :
    Memory.byteAt (Memory.storeBytes m a bs) x =
      if a ≤ x ∧ x < a + bs.length then bs.getD (x - a) Config.unwrittenByte else Memory.byteAt m x := by
  induction bs generalizing m a with
  | nil => simp only [Memory.storeBytes, List.length_nil]; rw [if_neg (by omega)]
  | cons b bs ih =>
    simp only [Memory.storeBytes, ih (Memory.canonical_store h a b), Memory.byteAt_store h, List.length_cons]
    by_cases hx : x = a
    · subst hx
      rw [if_neg (by omega), if_pos rfl, if_pos (by omega), Nat.sub_self]
      rfl
    · by_cases hr : a + 1 ≤ x ∧ x < a + 1 + bs.length
      · rw [if_pos hr, if_pos (by omega), show x - a = (x - (a + 1)) + 1 by omega, List.getD_cons_succ]
      · rw [if_neg hr, if_neg hx, if_neg (by omega)]

theorem Memory.canonical_nil : Memory.Canonical [] := ⟨List.Pairwise.nil, by simp⟩

/-- A whole buffer written at once reads back byte by byte. -/
theorem Memory.byteAt_fill (bs : List Byte) (x : Nat) :
    Memory.byteAt (Memory.fill bs) x = bs.getD x Config.unwrittenByte := by
  rw [Memory.fill, Memory.byteAt_storeBytes Memory.canonical_nil]
  split
  · rw [Nat.sub_zero]
  · next h =>
    rw [List.getD_eq_default _ _ (by omega)]
    rfl

/-- Every write of a buffer leaves it in canonical form: the bytes written fit the space. -/
theorem Memory.wf_fill (sp : Space) {bs : List Byte} (h : bs.length ≤ sp.size) :
    Memory.wf sp (Memory.fill bs) = true := by
  refine (Memory.wf_iff _ _).2 ⟨Memory.canonical_storeBytes Memory.canonical_nil 0 bs, fun c hc => ?_⟩
  rcases Memory.mem_storeBytes hc with h | h
  · omega
  · simp at h

/-- Storing bytes inside a space keeps the canonical form. -/
theorem Memory.wf_storeBytes {sp : Space} {m : Memory} (h : Memory.wf sp m = true) {a : Nat} {bs : List Byte}
    (hb : a + bs.length ≤ sp.size) : Memory.wf sp (Memory.storeBytes m a bs) = true := by
  obtain ⟨hc, hs⟩ := (Memory.wf_iff _ _).1 h
  refine (Memory.wf_iff _ _).2 ⟨Memory.canonical_storeBytes hc a bs, fun c h => ?_⟩
  rcases Memory.mem_storeBytes h with h | h
  · omega
  · exact hs c h

/-- Storing one byte inside a space keeps the canonical form. -/
theorem Memory.wf_store {sp : Space} {m : Memory} (h : Memory.wf sp m = true) {a : Nat} (ha : a < sp.size)
    (b : Byte) : Memory.wf sp (Memory.store m a b) = true :=
  Memory.wf_storeBytes h (bs := [b]) (by simpa using ha)

/-- An entry in front keeps the canonical form. -/
theorem Memory.wf_put {sp : Space} {m : Memory} (h : Memory.wf sp m = true) {a : Nat} (ha : a < sp.size)
    (hm : ∀ c ∈ m, a < c.1) (b : Byte) : Memory.wf sp (Memory.put a b m) = true := by
  obtain ⟨hc, hs⟩ := (Memory.wf_iff _ _).1 h
  refine (Memory.wf_iff _ _).2 ⟨Memory.canonical_put hc hm b, fun c h => ?_⟩
  rcases Memory.mem_put h with ⟨rfl, _⟩ | h
  · exact ha
  · exact hs c h

/-- Canonical memories that read alike at every address are equal data. -/
theorem Memory.eq_of_byteAt_eq {m n : Memory} (hm : Memory.Canonical m) (hn : Memory.Canonical n)
    (h : ∀ x, Memory.byteAt m x = Memory.byteAt n x) : m = n := by
  induction m generalizing n with
  | nil =>
    cases n with
    | nil => rfl
    | cons d n =>
      have := h d.1
      simp only [Memory.byteAt, if_pos] at this
      exact absurd this.symm (hn.2 d (by simp))
  | cons c m ih =>
    have hpm := List.pairwise_cons.1 hm.1
    cases n with
    | nil =>
      have := h c.1
      simp only [Memory.byteAt, if_pos] at this
      exact absurd this (hm.2 c (by simp))
    | cons d n =>
      have hpn := List.pairwise_cons.1 hn.1
      have hcd : c.1 = d.1 := by
        rcases Nat.lt_trichotomy c.1 d.1 with hlt | heq | hgt
        · have hc := h c.1
          simp only [Memory.byteAt, if_pos, if_neg (Nat.ne_of_lt hlt)] at hc
          rw [Memory.byteAt_of_all_above fun e he => Nat.lt_trans hlt (hpn.1 e he)] at hc
          exact absurd hc (hm.2 c (by simp))
        · exact heq
        · have hd := h d.1
          simp only [Memory.byteAt, if_pos, if_neg (Nat.ne_of_lt hgt)] at hd
          rw [Memory.byteAt_of_all_above fun e he => Nat.lt_trans hgt (hpm.1 e he)] at hd
          exact absurd hd.symm (hn.2 d (by simp))
      have hb : c.2 = d.2 := by
        have hc := h c.1
        simpa only [Memory.byteAt, if_pos, if_pos hcd] using hc
      have hmn : m = n := by
        refine ih ⟨hpm.2, fun e he => hm.2 e (by simp [he])⟩ ⟨hpn.2, fun e he => hn.2 e (by simp [he])⟩ fun x => ?_
        by_cases hx : x = c.1
        · rw [Memory.byteAt_of_all_above (hx ▸ hpm.1), Memory.byteAt_of_all_above (hx ▸ hcd ▸ hpn.1)]
        · have := h x
          simpa only [Memory.byteAt, if_neg hx, if_neg (hcd ▸ hx)] using this
      rw [hmn, Prod.ext hcd hb]

/-- Replacing a whole buffer is the `MemWrite` of all its bytes over whatever it held (00_scope.md section 6). -/
theorem Memory.storeBytes_eq_fill {sp : Space} {m : Memory} (h : Memory.wf sp m = true) {bs : List Byte}
    (hb : bs.length = sp.size) : Memory.storeBytes m 0 bs = Memory.fill bs := by
  obtain ⟨hc, hs⟩ := (Memory.wf_iff _ _).1 h
  refine Memory.eq_of_byteAt_eq (Memory.canonical_storeBytes hc 0 bs)
    (Memory.canonical_storeBytes Memory.canonical_nil 0 bs) fun x => ?_
  rw [Memory.byteAt_storeBytes hc, Memory.fill, Memory.byteAt_storeBytes Memory.canonical_nil]
  split
  · rfl
  · exact Memory.byteAt_of_not_listed fun c hc => by have := hs c hc; omega

end Sys2Proof.Machine
end

