-- ==== Sys2Proof/Laws/PerInstr.lean ====
section
/-! SUPPORT. Per-instruction family `RowMatch`: the encoding of every operation matches its row of
opcode_table.json under the row's mask. -/

namespace Sys2Proof.Laws.RowMatch

/-- A mask over the high byte keeps the selector and `z` and clears the operand. -/
theorem hi_mask (a : BitVec 8) (c : BitVec 16) :
    (a ++ c) &&& (BitVec.allOnes 8 ++ (0 : BitVec 16)) = a ++ (0 : BitVec 16) := by
  ext i hi
  simp only [BitVec.getElem_and, BitVec.getElem_append, BitVec.getElem_allOnes]
  split <;> simp

/-- `encode i` selects `i`'s own row of the table. -/
def Statement (i : Instr) : Prop := encode i &&& i.tableMask = i.tableMatch

theorem rdst : Statement .rdst := by unfold Statement; decide
theorem crcinit : Statement .crcinit := by unfold Statement; decide
theorem crcb (b : BitVec 8) : Statement (.crcb b) := by revert b; unfold Statement; decide
theorem crcrd : Statement .crcrd := by unfold Statement; decide
theorem frame (c : BitVec 16) : Statement (.frame c) := hi_mask ((4 : BitVec 4) ++ (0 : BitVec 4)) c
theorem rdtx (i : BitVec 1) : Statement (.rdtx i) := by revert i; unfold Statement; decide
theorem xfer : Statement .xfer := by unfold Statement; decide
theorem rdrx (j : BitVec 5) : Statement (.rdrx j) := by revert j; unfold Statement; decide
theorem wchk (k : BitVec 3) : Statement (.wchk k) := by revert k; unfold Statement; decide
theorem parse : Statement .parse := by unfold Statement; decide
theorem rdw (i : BitVec 1) : Statement (.rdw i) := by revert i; unfold Statement; decide
theorem rdpid : Statement .rdpid := by unfold Statement; decide
theorem idcmp : Statement .idcmp := by unfold Statement; decide
theorem sopen : Statement .sopen := by unfold Statement; decide
theorem sclose : Statement .sclose := by unfold Statement; decide

end Sys2Proof.Laws.RowMatch
end

