-- ==== Sys2Proof/Laws/State.lean ====
section
/-! SUPPORT. One lemma per field per update of State, so that no later proof unfolds an update. -/

namespace Sys2Proof.Machine

variable (s : State)

/-! ### `State.answer` -/

@[simp] theorem State.answer_crc (ok : Bool) (data : Word) : (s.answer ok data).crc = s.crc := rfl
@[simp] theorem State.answer_tx (ok : Bool) (data : Word) : (s.answer ok data).tx = s.tx := rfl
@[simp] theorem State.answer_rx (ok : Bool) (data : Word) : (s.answer ok data).rx = s.rx := rfl
@[simp] theorem State.answer_w0 (ok : Bool) (data : Word) : (s.answer ok data).w0 = s.w0 := rfl
@[simp] theorem State.answer_w1 (ok : Bool) (data : Word) : (s.answer ok data).w1 = s.w1 := rfl
@[simp] theorem State.answer_ss (ok : Bool) (data : Word) : (s.answer ok data).ss = s.ss := rfl
@[simp] theorem State.answer_txv (ok : Bool) (data : Word) : (s.answer ok data).txv = s.txv := rfl
@[simp] theorem State.answer_rxv (ok : Bool) (data : Word) : (s.answer ok data).rxv = s.rxv := rfl
@[simp] theorem State.answer_dv (ok : Bool) (data : Word) : (s.answer ok data).dv = s.dv := rfl
@[simp] theorem State.answer_wok (ok : Bool) (data : Word) : (s.answer ok data).wok = s.wok := rfl
@[simp] theorem State.answer_err (ok : Bool) (data : Word) : (s.answer ok data).err = s.err := rfl
@[simp] theorem State.answer_inputs (ok : Bool) (data : Word) : (s.answer ok data).inputs = s.inputs := rfl
@[simp] theorem State.answer_acquires (ok : Bool) (data : Word) : (s.answer ok data).acquires = s.acquires := rfl
@[simp] theorem State.answer_transfers (ok : Bool) (data : Word) : (s.answer ok data).transfers = s.transfers := rfl
@[simp] theorem State.answer_params (ok : Bool) (data : Word) : (s.answer ok data).params = s.params := rfl
@[simp] theorem State.answer_responses (ok : Bool) (data : Word) : (s.answer ok data).responses = ⟨ok, data⟩ :: s.responses := rfl
@[simp] theorem State.answer_calls (ok : Bool) (data : Word) : (s.answer ok data).calls = s.calls := rfl
@[simp] theorem State.answer_draws (ok : Bool) (data : Word) : (s.answer ok data).draws = s.draws := rfl

/-! ### `State.raise` -/

@[simp] theorem State.raise_crc (e : ErrorCode) : (s.raise e).crc = s.crc := rfl
@[simp] theorem State.raise_tx (e : ErrorCode) : (s.raise e).tx = s.tx := rfl
@[simp] theorem State.raise_rx (e : ErrorCode) : (s.raise e).rx = s.rx := rfl
@[simp] theorem State.raise_w0 (e : ErrorCode) : (s.raise e).w0 = s.w0 := rfl
@[simp] theorem State.raise_w1 (e : ErrorCode) : (s.raise e).w1 = s.w1 := rfl
@[simp] theorem State.raise_ss (e : ErrorCode) : (s.raise e).ss = s.ss := rfl
@[simp] theorem State.raise_txv (e : ErrorCode) : (s.raise e).txv = s.txv := rfl
@[simp] theorem State.raise_rxv (e : ErrorCode) : (s.raise e).rxv = s.rxv := rfl
@[simp] theorem State.raise_dv (e : ErrorCode) : (s.raise e).dv = s.dv := rfl
@[simp] theorem State.raise_wok (e : ErrorCode) : (s.raise e).wok = s.wok := rfl
@[simp] theorem State.raise_err (e : ErrorCode) : (s.raise e).err = e := rfl
@[simp] theorem State.raise_inputs (e : ErrorCode) : (s.raise e).inputs = s.inputs := rfl
@[simp] theorem State.raise_acquires (e : ErrorCode) : (s.raise e).acquires = s.acquires := rfl
@[simp] theorem State.raise_transfers (e : ErrorCode) : (s.raise e).transfers = s.transfers := rfl
@[simp] theorem State.raise_params (e : ErrorCode) : (s.raise e).params = s.params := rfl
@[simp] theorem State.raise_responses (e : ErrorCode) : (s.raise e).responses = ⟨false, 0⟩ :: s.responses := rfl
@[simp] theorem State.raise_calls (e : ErrorCode) : (s.raise e).calls = s.calls := rfl
@[simp] theorem State.raise_draws (e : ErrorCode) : (s.raise e).draws = s.draws := rfl

/-! ### `State.succeed` -/

@[simp] theorem State.succeed_crc : (s.succeed).crc = s.crc := rfl
@[simp] theorem State.succeed_tx : (s.succeed).tx = s.tx := rfl
@[simp] theorem State.succeed_rx : (s.succeed).rx = s.rx := rfl
@[simp] theorem State.succeed_w0 : (s.succeed).w0 = s.w0 := rfl
@[simp] theorem State.succeed_w1 : (s.succeed).w1 = s.w1 := rfl
@[simp] theorem State.succeed_ss : (s.succeed).ss = s.ss := rfl
@[simp] theorem State.succeed_txv : (s.succeed).txv = s.txv := rfl
@[simp] theorem State.succeed_rxv : (s.succeed).rxv = s.rxv := rfl
@[simp] theorem State.succeed_dv : (s.succeed).dv = s.dv := rfl
@[simp] theorem State.succeed_wok : (s.succeed).wok = s.wok := rfl
@[simp] theorem State.succeed_err : (s.succeed).err = .noError := rfl
@[simp] theorem State.succeed_inputs : (s.succeed).inputs = s.inputs := rfl
@[simp] theorem State.succeed_acquires : (s.succeed).acquires = s.acquires := rfl
@[simp] theorem State.succeed_transfers : (s.succeed).transfers = s.transfers := rfl
@[simp] theorem State.succeed_params : (s.succeed).params = s.params := rfl
@[simp] theorem State.succeed_responses : (s.succeed).responses = ⟨true, 0⟩ :: s.responses := rfl
@[simp] theorem State.succeed_calls : (s.succeed).calls = s.calls := rfl
@[simp] theorem State.succeed_draws : (s.succeed).draws = s.draws := rfl

/-! ### `State.loadFrame` -/

@[simp] theorem State.loadFrame_crc (c : Half) : (s.loadFrame c).crc = s.crc := rfl
@[simp] theorem State.loadFrame_tx (c : Half) : (s.loadFrame c).tx = Memory.fill [hiByte c, loByte c] := rfl
@[simp] theorem State.loadFrame_rx (c : Half) : (s.loadFrame c).rx = s.rx := rfl
@[simp] theorem State.loadFrame_w0 (c : Half) : (s.loadFrame c).w0 = s.w0 := rfl
@[simp] theorem State.loadFrame_w1 (c : Half) : (s.loadFrame c).w1 = s.w1 := rfl
@[simp] theorem State.loadFrame_ss (c : Half) : (s.loadFrame c).ss = s.ss := rfl
@[simp] theorem State.loadFrame_txv (c : Half) : (s.loadFrame c).txv = true := rfl
@[simp] theorem State.loadFrame_rxv (c : Half) : (s.loadFrame c).rxv = s.rxv := rfl
@[simp] theorem State.loadFrame_dv (c : Half) : (s.loadFrame c).dv = s.dv := rfl
@[simp] theorem State.loadFrame_wok (c : Half) : (s.loadFrame c).wok = s.wok := rfl
@[simp] theorem State.loadFrame_err (c : Half) : (s.loadFrame c).err = s.err := rfl
@[simp] theorem State.loadFrame_inputs (c : Half) : (s.loadFrame c).inputs = s.inputs := rfl
@[simp] theorem State.loadFrame_acquires (c : Half) : (s.loadFrame c).acquires = s.acquires := rfl
@[simp] theorem State.loadFrame_transfers (c : Half) : (s.loadFrame c).transfers = s.transfers := rfl
@[simp] theorem State.loadFrame_params (c : Half) : (s.loadFrame c).params = s.params := rfl
@[simp] theorem State.loadFrame_responses (c : Half) : (s.loadFrame c).responses = s.responses := rfl
@[simp] theorem State.loadFrame_calls (c : Half) : (s.loadFrame c).calls = s.calls := rfl
@[simp] theorem State.loadFrame_draws (c : Half) : (s.loadFrame c).draws = s.draws := rfl

/-! ### `State.loadResponse` -/

@[simp] theorem State.loadResponse_crc (b : Vector Byte 18) : (s.loadResponse b).crc = s.crc := rfl
@[simp] theorem State.loadResponse_tx (b : Vector Byte 18) : (s.loadResponse b).tx = s.tx := rfl
@[simp] theorem State.loadResponse_rx (b : Vector Byte 18) : (s.loadResponse b).rx = Memory.fill b.toList := rfl
@[simp] theorem State.loadResponse_w0 (b : Vector Byte 18) : (s.loadResponse b).w0 = s.w0 := rfl
@[simp] theorem State.loadResponse_w1 (b : Vector Byte 18) : (s.loadResponse b).w1 = s.w1 := rfl
@[simp] theorem State.loadResponse_ss (b : Vector Byte 18) : (s.loadResponse b).ss = s.ss := rfl
@[simp] theorem State.loadResponse_txv (b : Vector Byte 18) : (s.loadResponse b).txv = s.txv := rfl
@[simp] theorem State.loadResponse_rxv (b : Vector Byte 18) : (s.loadResponse b).rxv = true := rfl
@[simp] theorem State.loadResponse_dv (b : Vector Byte 18) : (s.loadResponse b).dv = s.dv := rfl
@[simp] theorem State.loadResponse_wok (b : Vector Byte 18) : (s.loadResponse b).wok = s.wok := rfl
@[simp] theorem State.loadResponse_err (b : Vector Byte 18) : (s.loadResponse b).err = s.err := rfl
@[simp] theorem State.loadResponse_inputs (b : Vector Byte 18) : (s.loadResponse b).inputs = s.inputs := rfl
@[simp] theorem State.loadResponse_acquires (b : Vector Byte 18) : (s.loadResponse b).acquires = s.acquires := rfl
@[simp] theorem State.loadResponse_transfers (b : Vector Byte 18) : (s.loadResponse b).transfers = s.transfers := rfl
@[simp] theorem State.loadResponse_params (b : Vector Byte 18) : (s.loadResponse b).params = s.params := rfl
@[simp] theorem State.loadResponse_responses (b : Vector Byte 18) : (s.loadResponse b).responses = s.responses := rfl
@[simp] theorem State.loadResponse_calls (b : Vector Byte 18) : (s.loadResponse b).calls = s.calls := rfl
@[simp] theorem State.loadResponse_draws (b : Vector Byte 18) : (s.loadResponse b).draws = s.draws := rfl

/-! ### `State.loseResponse` -/

@[simp] theorem State.loseResponse_crc : (s.loseResponse).crc = s.crc := rfl
@[simp] theorem State.loseResponse_tx : (s.loseResponse).tx = s.tx := rfl
@[simp] theorem State.loseResponse_rx : (s.loseResponse).rx = Memory.fill (Config.freeResponse s.draws).toList := rfl
@[simp] theorem State.loseResponse_w0 : (s.loseResponse).w0 = s.w0 := rfl
@[simp] theorem State.loseResponse_w1 : (s.loseResponse).w1 = s.w1 := rfl
@[simp] theorem State.loseResponse_ss : (s.loseResponse).ss = s.ss := rfl
@[simp] theorem State.loseResponse_txv : (s.loseResponse).txv = s.txv := rfl
@[simp] theorem State.loseResponse_rxv : (s.loseResponse).rxv = false := rfl
@[simp] theorem State.loseResponse_dv : (s.loseResponse).dv = s.dv := rfl
@[simp] theorem State.loseResponse_wok : (s.loseResponse).wok = s.wok := rfl
@[simp] theorem State.loseResponse_err : (s.loseResponse).err = s.err := rfl
@[simp] theorem State.loseResponse_inputs : (s.loseResponse).inputs = s.inputs := rfl
@[simp] theorem State.loseResponse_acquires : (s.loseResponse).acquires = s.acquires := rfl
@[simp] theorem State.loseResponse_transfers : (s.loseResponse).transfers = s.transfers := rfl
@[simp] theorem State.loseResponse_params : (s.loseResponse).params = s.params := rfl
@[simp] theorem State.loseResponse_responses : (s.loseResponse).responses = s.responses := rfl
@[simp] theorem State.loseResponse_calls : (s.loseResponse).calls = s.calls := rfl
@[simp] theorem State.loseResponse_draws : (s.loseResponse).draws = s.draws + 1 := rfl

/-! ### `State.beginTransfer` -/

@[simp] theorem State.beginTransfer_crc : (s.beginTransfer).crc = s.crc := rfl
@[simp] theorem State.beginTransfer_tx : (s.beginTransfer).tx = s.tx := rfl
@[simp] theorem State.beginTransfer_rx : (s.beginTransfer).rx = s.rx := rfl
@[simp] theorem State.beginTransfer_w0 : (s.beginTransfer).w0 = s.w0 := rfl
@[simp] theorem State.beginTransfer_w1 : (s.beginTransfer).w1 = s.w1 := rfl
@[simp] theorem State.beginTransfer_ss : (s.beginTransfer).ss = .opened := rfl
@[simp] theorem State.beginTransfer_txv : (s.beginTransfer).txv = s.txv := rfl
@[simp] theorem State.beginTransfer_rxv : (s.beginTransfer).rxv = s.rxv := rfl
@[simp] theorem State.beginTransfer_dv : (s.beginTransfer).dv = false := rfl
@[simp] theorem State.beginTransfer_wok : (s.beginTransfer).wok = false := rfl
@[simp] theorem State.beginTransfer_err : (s.beginTransfer).err = s.err := rfl
@[simp] theorem State.beginTransfer_inputs : (s.beginTransfer).inputs = s.inputs := rfl
@[simp] theorem State.beginTransfer_acquires : (s.beginTransfer).acquires = s.acquires := rfl
@[simp] theorem State.beginTransfer_transfers : (s.beginTransfer).transfers = s.transfers := rfl
@[simp] theorem State.beginTransfer_params : (s.beginTransfer).params = s.params := rfl
@[simp] theorem State.beginTransfer_responses : (s.beginTransfer).responses = s.responses := rfl
@[simp] theorem State.beginTransfer_calls : (s.beginTransfer).calls = s.calls := rfl
@[simp] theorem State.beginTransfer_draws : (s.beginTransfer).draws = s.draws := rfl

/-! ### `State.decodeWords` -/

@[simp] theorem State.decodeWords_crc : (s.decodeWords).crc = s.crc := rfl
@[simp] theorem State.decodeWords_tx : (s.decodeWords).tx = s.tx := rfl
@[simp] theorem State.decodeWords_rx : (s.decodeWords).rx = s.rx := rfl
@[simp] theorem State.decodeWords_w0 : (s.decodeWords).w0 = joinBytes (s.rxAt 0) (s.rxAt 1) := rfl
@[simp] theorem State.decodeWords_w1 : (s.decodeWords).w1 = joinBytes (s.rxAt 3) (s.rxAt 4) := rfl
@[simp] theorem State.decodeWords_ss : (s.decodeWords).ss = s.ss := rfl
@[simp] theorem State.decodeWords_txv : (s.decodeWords).txv = s.txv := rfl
@[simp] theorem State.decodeWords_rxv : (s.decodeWords).rxv = s.rxv := rfl
@[simp] theorem State.decodeWords_dv : (s.decodeWords).dv = true := rfl
@[simp] theorem State.decodeWords_wok : (s.decodeWords).wok = s.wok := rfl
@[simp] theorem State.decodeWords_err : (s.decodeWords).err = s.err := rfl
@[simp] theorem State.decodeWords_inputs : (s.decodeWords).inputs = s.inputs := rfl
@[simp] theorem State.decodeWords_acquires : (s.decodeWords).acquires = s.acquires := rfl
@[simp] theorem State.decodeWords_transfers : (s.decodeWords).transfers = s.transfers := rfl
@[simp] theorem State.decodeWords_params : (s.decodeWords).params = s.params := rfl
@[simp] theorem State.decodeWords_responses : (s.decodeWords).responses = s.responses := rfl
@[simp] theorem State.decodeWords_calls : (s.decodeWords).calls = s.calls := rfl
@[simp] theorem State.decodeWords_draws : (s.decodeWords).draws = s.draws := rfl

/-! ### `State.discardSession` -/

@[simp] theorem State.discardSession_crc : (s.discardSession).crc = s.crc := rfl
@[simp] theorem State.discardSession_tx : (s.discardSession).tx = s.tx := rfl
@[simp] theorem State.discardSession_rx : (s.discardSession).rx = s.rx := rfl
@[simp] theorem State.discardSession_w0 : (s.discardSession).w0 = s.w0 := rfl
@[simp] theorem State.discardSession_w1 : (s.discardSession).w1 = s.w1 := rfl
@[simp] theorem State.discardSession_ss : (s.discardSession).ss = .uninit := rfl
@[simp] theorem State.discardSession_txv : (s.discardSession).txv = false := rfl
@[simp] theorem State.discardSession_rxv : (s.discardSession).rxv = false := rfl
@[simp] theorem State.discardSession_dv : (s.discardSession).dv = false := rfl
@[simp] theorem State.discardSession_wok : (s.discardSession).wok = false := rfl
@[simp] theorem State.discardSession_err : (s.discardSession).err = s.err := rfl
@[simp] theorem State.discardSession_inputs : (s.discardSession).inputs = s.inputs := rfl
@[simp] theorem State.discardSession_acquires : (s.discardSession).acquires = s.acquires := rfl
@[simp] theorem State.discardSession_transfers : (s.discardSession).transfers = s.transfers := rfl
@[simp] theorem State.discardSession_params : (s.discardSession).params = s.params := rfl
@[simp] theorem State.discardSession_responses : (s.discardSession).responses = s.responses := rfl
@[simp] theorem State.discardSession_calls : (s.discardSession).calls = s.calls := rfl
@[simp] theorem State.discardSession_draws : (s.discardSession).draws = s.draws := rfl

/-! ### `State.askAcquire` -/

@[simp] theorem State.askAcquire_crc : (s.askAcquire).crc = s.crc := rfl
@[simp] theorem State.askAcquire_tx : (s.askAcquire).tx = s.tx := rfl
@[simp] theorem State.askAcquire_rx : (s.askAcquire).rx = s.rx := rfl
@[simp] theorem State.askAcquire_w0 : (s.askAcquire).w0 = s.w0 := rfl
@[simp] theorem State.askAcquire_w1 : (s.askAcquire).w1 = s.w1 := rfl
@[simp] theorem State.askAcquire_ss : (s.askAcquire).ss = s.ss := rfl
@[simp] theorem State.askAcquire_txv : (s.askAcquire).txv = s.txv := rfl
@[simp] theorem State.askAcquire_rxv : (s.askAcquire).rxv = s.rxv := rfl
@[simp] theorem State.askAcquire_dv : (s.askAcquire).dv = s.dv := rfl
@[simp] theorem State.askAcquire_wok : (s.askAcquire).wok = s.wok := rfl
@[simp] theorem State.askAcquire_err : (s.askAcquire).err = s.err := rfl
@[simp] theorem State.askAcquire_inputs : (s.askAcquire).inputs = s.inputs := rfl
@[simp] theorem State.askAcquire_acquires : (s.askAcquire).acquires = s.acquires.tail := rfl
@[simp] theorem State.askAcquire_transfers : (s.askAcquire).transfers = s.transfers := rfl
@[simp] theorem State.askAcquire_params : (s.askAcquire).params = s.params := rfl
@[simp] theorem State.askAcquire_responses : (s.askAcquire).responses = s.responses := rfl
@[simp] theorem State.askAcquire_calls : (s.askAcquire).calls = .acquire :: s.calls := rfl
@[simp] theorem State.askAcquire_draws : (s.askAcquire).draws = drawsAfter s.acquires s.draws := rfl

/-! ### `State.askTransfer` -/

@[simp] theorem State.askTransfer_crc : (s.askTransfer).crc = s.crc := rfl
@[simp] theorem State.askTransfer_tx : (s.askTransfer).tx = s.tx := rfl
@[simp] theorem State.askTransfer_rx : (s.askTransfer).rx = s.rx := rfl
@[simp] theorem State.askTransfer_w0 : (s.askTransfer).w0 = s.w0 := rfl
@[simp] theorem State.askTransfer_w1 : (s.askTransfer).w1 = s.w1 := rfl
@[simp] theorem State.askTransfer_ss : (s.askTransfer).ss = s.ss := rfl
@[simp] theorem State.askTransfer_txv : (s.askTransfer).txv = s.txv := rfl
@[simp] theorem State.askTransfer_rxv : (s.askTransfer).rxv = s.rxv := rfl
@[simp] theorem State.askTransfer_dv : (s.askTransfer).dv = s.dv := rfl
@[simp] theorem State.askTransfer_wok : (s.askTransfer).wok = s.wok := rfl
@[simp] theorem State.askTransfer_err : (s.askTransfer).err = s.err := rfl
@[simp] theorem State.askTransfer_inputs : (s.askTransfer).inputs = s.inputs := rfl
@[simp] theorem State.askTransfer_acquires : (s.askTransfer).acquires = s.acquires := rfl
@[simp] theorem State.askTransfer_transfers : (s.askTransfer).transfers = s.transfers.tail := rfl
@[simp] theorem State.askTransfer_params : (s.askTransfer).params = s.params := rfl
@[simp] theorem State.askTransfer_responses : (s.askTransfer).responses = s.responses := rfl
@[simp] theorem State.askTransfer_calls : (s.askTransfer).calls = .writeThenRead [s.txAt 0, s.txAt 1] Config.respLen :: s.calls := rfl
@[simp] theorem State.askTransfer_draws : (s.askTransfer).draws = drawsAfter s.transfers s.draws := rfl

/-! ### `State.hostReset` -/

@[simp] theorem State.hostReset_crc : (s.hostReset).crc = Config.crcInit := rfl
@[simp] theorem State.hostReset_tx : (s.hostReset).tx = Memory.fill (Config.freeFrame s.draws).toList := rfl
@[simp] theorem State.hostReset_rx : (s.hostReset).rx = Memory.fill (Config.freeResponse s.draws).toList := rfl
@[simp] theorem State.hostReset_w0 : (s.hostReset).w0 = Config.freeDecoded 0 s.draws := rfl
@[simp] theorem State.hostReset_w1 : (s.hostReset).w1 = Config.freeDecoded 1 s.draws := rfl
@[simp] theorem State.hostReset_ss : (s.hostReset).ss = .uninit := rfl
@[simp] theorem State.hostReset_txv : (s.hostReset).txv = false := rfl
@[simp] theorem State.hostReset_rxv : (s.hostReset).rxv = false := rfl
@[simp] theorem State.hostReset_dv : (s.hostReset).dv = false := rfl
@[simp] theorem State.hostReset_wok : (s.hostReset).wok = false := rfl
@[simp] theorem State.hostReset_err : (s.hostReset).err = .noError := rfl
@[simp] theorem State.hostReset_inputs : (s.hostReset).inputs = s.inputs := rfl
@[simp] theorem State.hostReset_acquires : (s.hostReset).acquires = s.acquires := rfl
@[simp] theorem State.hostReset_transfers : (s.hostReset).transfers = s.transfers := rfl
@[simp] theorem State.hostReset_params : (s.hostReset).params = s.params := rfl
@[simp] theorem State.hostReset_responses : (s.hostReset).responses = s.responses := rfl
@[simp] theorem State.hostReset_calls : (s.hostReset).calls = s.calls := rfl
@[simp] theorem State.hostReset_draws : (s.hostReset).draws = s.draws + 1 := rfl

/-! ### `State.present` -/

@[simp] theorem State.present_crc (w : ReqWord) : (s.present w).crc = s.crc := rfl
@[simp] theorem State.present_tx (w : ReqWord) : (s.present w).tx = s.tx := rfl
@[simp] theorem State.present_rx (w : ReqWord) : (s.present w).rx = s.rx := rfl
@[simp] theorem State.present_w0 (w : ReqWord) : (s.present w).w0 = s.w0 := rfl
@[simp] theorem State.present_w1 (w : ReqWord) : (s.present w).w1 = s.w1 := rfl
@[simp] theorem State.present_ss (w : ReqWord) : (s.present w).ss = s.ss := rfl
@[simp] theorem State.present_txv (w : ReqWord) : (s.present w).txv = s.txv := rfl
@[simp] theorem State.present_rxv (w : ReqWord) : (s.present w).rxv = s.rxv := rfl
@[simp] theorem State.present_dv (w : ReqWord) : (s.present w).dv = s.dv := rfl
@[simp] theorem State.present_wok (w : ReqWord) : (s.present w).wok = s.wok := rfl
@[simp] theorem State.present_err (w : ReqWord) : (s.present w).err = s.err := rfl
@[simp] theorem State.present_inputs (w : ReqWord) : (s.present w).inputs = .request w :: s.inputs := rfl
@[simp] theorem State.present_acquires (w : ReqWord) : (s.present w).acquires = s.acquires := rfl
@[simp] theorem State.present_transfers (w : ReqWord) : (s.present w).transfers = s.transfers := rfl
@[simp] theorem State.present_params (w : ReqWord) : (s.present w).params = s.params := rfl
@[simp] theorem State.present_responses (w : ReqWord) : (s.present w).responses = s.responses := rfl
@[simp] theorem State.present_calls (w : ReqWord) : (s.present w).calls = s.calls := rfl
@[simp] theorem State.present_draws (w : ReqWord) : (s.present w).draws = s.draws := rfl

end Sys2Proof.Machine
end

