-- ==== Sys2Proof/Tests/Slice0.lean ====
section
/-! SUPPORT. Tests on fixed values, each with the place of spec/ its expected result comes from, and a witness for the
hypotheses of every statement that has some. The parameters are the example values of 95_test_vectors.md. -/

namespace Sys2Proof.Tests

open Sys2Proof Sys2Proof.Machine

set_option maxRecDepth 8000

/-! ### The bench -/

/-- `GOOD` of 95_test_vectors.md section 3. -/
def good : Vector Byte 18 :=
  #v[0x09, 0x01, 0x73, 0x01, 0x8A, 0xD4, 0xDE, 0xAD, 0x98, 0xBE, 0xEF, 0x92, 0x12, 0x34, 0x37, 0xAB, 0xCD, 0x6F]

/-- `OTHER` of 95_test_vectors.md, program P3: valid CRCs, another identifier. -/
def other : Vector Byte 18 := (good.set 4 0x8B).set 5 0xE5

/-- `BAD2` of 95_test_vectors.md, program P2: the CRC byte of word 0 corrupted. -/
def bad2 : Vector Byte 18 := good.set 2 0x72

/-- `TAILBAD` of 95_test_vectors.md, program P7: words 2 and 5 invalid. -/
def tailBad : Vector Byte 18 := (good.set 8 0x67).set 17 0x00

/-- After reset, with the example parameters, a transport that grants a handle and answers `b`. -/
def bench (b : Vector Byte 18) : State :=
  { State.reset with
    params := ⟨0x365B, 0x0901018A⟩, acquires := [some .acquired], transfers := [some (.ok b)] }

/-- An open session that holds the frame. -/
def framed (b : Vector Byte 18) : State :=
  { bench b with ss := .opened, tx := [(0, 0x36), (1, 0x5B)], txv := true }

/-- An open session that holds the response `b`. -/
def received (b : Vector Byte 18) : State := { framed b with rx := Memory.fill b.toList, rxv := true }

/-- An open session whose words 0 and 1 are decoded. -/
def decoded (w0 w1 : Half) : State := { received good with w0 := w0, w1 := w1, dv := true }

/-- What a test looks at: `ST` and the last response, where there is a next state. -/
def seen : Host.Outcome State Fault Refusal → Option (Half × Option Response)
  | .next t => some (t.st, t.responses.head?)
  | .fault _ => none
  | .refused _ => none

/-- The next state, where there is one. -/
def nextOf : Host.Outcome State Fault Refusal → Option State
  | .next t => some t
  | .fault _ => none
  | .refused _ => none

/-- Why there is no next state. -/
def stopOf : Host.Outcome State Fault Refusal → Option (Fault ⊕ Refusal)
  | .next _ => none
  | .fault f => some (.inl f)
  | .refused r => some (.inr r)

/-! ### Well-formedness -/

theorem test_rdrx_range : (Instr.rdrx 17).wellFormed = true ∧ (Instr.rdrx 18).wellFormed = false ∧
    (Instr.rdrx 31).wellFormed = false := by decide

theorem test_wchk_range : (Instr.wchk 5).wellFormed = true ∧ (Instr.wchk 6).wellFormed = false ∧
    (Instr.wchk 7).wellFormed = false := by decide

/-! ### Decoding: request words of 95_test_vectors.md sections 2.9 and 3, bit by bit from 30_encoding.md R46 to R48 -/

theorem test_decode_crc_unit :
    decode 0b000100000000000000000000 = .ok .crcinit ∧ decode 0b001000000000000000110001 = .ok (.crcb 0x31) ∧
    decode 0b001000000000000011111111 = .ok (.crcb 0xFF) ∧ decode 0b001100000000000000000000 = .ok .crcrd := by decide

theorem test_decode_framer :
    decode 0b010000000011011001011011 = .ok (.frame 0x365B) ∧ decode 0b010000000000000000000000 = .ok (.frame 0) ∧
    decode 0b010100000000000000000000 = .ok (.rdtx 0) ∧ decode 0b010100000000000000000001 = .ok (.rdtx 1) := by decide

theorem test_decode_parser :
    decode 0b011000000000000000000000 = .ok .xfer ∧ decode 0b011100000000000000010001 = .ok (.rdrx 17) ∧
    decode 0b011100000000000000000110 = .ok (.rdrx 6) ∧ decode 0b100000000000000000000101 = .ok (.wchk 5) ∧
    decode 0b100100000000000000000000 = .ok .parse ∧ decode 0b101000000000000000000001 = .ok (.rdw 1) ∧
    decode 0b101100000000000000000000 = .ok .rdpid := by decide

theorem test_decode_session :
    decode 0b110000000000000000000000 = .ok .idcmp ∧ decode 0b110100000000000000000000 = .ok .sopen ∧
    decode 0b111000000000000000000000 = .ok .sclose ∧ decode 0b000000000000000000000000 = .ok .rdst := by decide

/-- 95_test_vectors.md section 2.9, the illegal words in the table's order. -/
theorem test_illegal_words :
    decode 0xF00000 = .error .reservedSelector ∧ decode 0x010000 = .error .nonzeroZ ∧
    decode 0x000001 = .error .strayArgBits ∧ decode 0x200100 = .error .strayArgBits ∧
    decode 0x500002 = .error .strayArgBits ∧ decode 0x700012 = .error .rxIndexOutOfRange ∧
    decode 0x700020 = .error .strayArgBits ∧ decode 0x800006 = .error .wordIndexOutOfRange ∧
    decode 0x800008 = .error .strayArgBits ∧ decode 0xA00002 = .error .strayArgBits ∧
    decode 0x900001 = .error .strayArgBits ∧ decode 0x4F0000 = .error .nonzeroZ := by decide

/-- 30_encoding.md R55, the examples. -/
theorem test_encode : encode (.crcb 0xBE) = 0x2000BE ∧ encode (.frame 0x365B) = 0x40365B ∧
    encode (.wchk 5) = 0x800005 ∧ encode (.rdrx 17) = 0x700011 ∧ encode .sclose = 0xE00000 := by decide

theorem test_table_words : decodeTableWord 24 0x40365B = some (.frame 0x365B) ∧ decodeTableWord 24 0xF00000 = none ∧
    decodeTableWord 24 0x700012 = none := by decide

theorem test_fetched_word_runs_first :
    seen (step ((framed good).withFetchWord 24 0x500001)) = some (0x0005, some ⟨true, 0x5B⟩) := by decide

/-! ### CRC -/

/-- 95_test_vectors.md section 2.1, with the running value of the third trace. -/
theorem test_crc_traces : crc8 [] = 0xFF ∧ crc8 [0x00, 0x00] = 0x81 ∧ crc8 [0x01, 0x02] = 0x17 ∧
    crcStep 0xFF 0xBE = 0x0C ∧ crc8 [0xBE, 0xEF] = 0x92 := by decide

/-- 95_test_vectors.md section 2.2. -/
theorem test_crc_vectors : crc8 [0x80] = 0xD6 ∧ crc8 [0x02, 0x01] = 0x69 ∧ crc8 [0xFF, 0xFF] = 0xAC ∧
    crc8 [0x36, 0x5B] = 0xFD ∧ crc8 [0x01, 0x8B] = 0xE5 ∧
    crc8 [0x31, 0x32, 0x33, 0x34, 0x35, 0x36, 0x37, 0x38, 0x39] = 0xF7 := by decide

/-- 95_test_vectors.md section 2.3, rows 0x to 7x of the table `T`. -/
def tableLow : List (List Byte) :=
  [[0x00, 0x31, 0x62, 0x53, 0xC4, 0xF5, 0xA6, 0x97, 0xB9, 0x88, 0xDB, 0xEA, 0x7D, 0x4C, 0x1F, 0x2E]] ++
  [[0x43, 0x72, 0x21, 0x10, 0x87, 0xB6, 0xE5, 0xD4, 0xFA, 0xCB, 0x98, 0xA9, 0x3E, 0x0F, 0x5C, 0x6D]] ++
  [[0x86, 0xB7, 0xE4, 0xD5, 0x42, 0x73, 0x20, 0x11, 0x3F, 0x0E, 0x5D, 0x6C, 0xFB, 0xCA, 0x99, 0xA8]] ++
  [[0xC5, 0xF4, 0xA7, 0x96, 0x01, 0x30, 0x63, 0x52, 0x7C, 0x4D, 0x1E, 0x2F, 0xB8, 0x89, 0xDA, 0xEB]] ++
  [[0x3D, 0x0C, 0x5F, 0x6E, 0xF9, 0xC8, 0x9B, 0xAA, 0x84, 0xB5, 0xE6, 0xD7, 0x40, 0x71, 0x22, 0x13]] ++
  [[0x7E, 0x4F, 0x1C, 0x2D, 0xBA, 0x8B, 0xD8, 0xE9, 0xC7, 0xF6, 0xA5, 0x94, 0x03, 0x32, 0x61, 0x50]] ++
  [[0xBB, 0x8A, 0xD9, 0xE8, 0x7F, 0x4E, 0x1D, 0x2C, 0x02, 0x33, 0x60, 0x51, 0xC6, 0xF7, 0xA4, 0x95]] ++
  [[0xF8, 0xC9, 0x9A, 0xAB, 0x3C, 0x0D, 0x5E, 0x6F, 0x41, 0x70, 0x23, 0x12, 0x85, 0xB4, 0xE7, 0xD6]]

/-- Rows 8x to Fx. -/
def tableHigh : List (List Byte) :=
  [[0x7A, 0x4B, 0x18, 0x29, 0xBE, 0x8F, 0xDC, 0xED, 0xC3, 0xF2, 0xA1, 0x90, 0x07, 0x36, 0x65, 0x54]] ++
  [[0x39, 0x08, 0x5B, 0x6A, 0xFD, 0xCC, 0x9F, 0xAE, 0x80, 0xB1, 0xE2, 0xD3, 0x44, 0x75, 0x26, 0x17]] ++
  [[0xFC, 0xCD, 0x9E, 0xAF, 0x38, 0x09, 0x5A, 0x6B, 0x45, 0x74, 0x27, 0x16, 0x81, 0xB0, 0xE3, 0xD2]] ++
  [[0xBF, 0x8E, 0xDD, 0xEC, 0x7B, 0x4A, 0x19, 0x28, 0x06, 0x37, 0x64, 0x55, 0xC2, 0xF3, 0xA0, 0x91]] ++
  [[0x47, 0x76, 0x25, 0x14, 0x83, 0xB2, 0xE1, 0xD0, 0xFE, 0xCF, 0x9C, 0xAD, 0x3A, 0x0B, 0x58, 0x69]] ++
  [[0x04, 0x35, 0x66, 0x57, 0xC0, 0xF1, 0xA2, 0x93, 0xBD, 0x8C, 0xDF, 0xEE, 0x79, 0x48, 0x1B, 0x2A]] ++
  [[0xC1, 0xF0, 0xA3, 0x92, 0x05, 0x34, 0x67, 0x56, 0x78, 0x49, 0x1A, 0x2B, 0xBC, 0x8D, 0xDE, 0xEF]] ++
  [[0x82, 0xB3, 0xE0, 0xD1, 0x46, 0x77, 0x24, 0x15, 0x3B, 0x0A, 0x59, 0x68, 0xFF, 0xCE, 0x9D, 0xAC]]

/-- Row `h` of the table as the model computes it. -/
def tableRow (h : Nat) : List Byte := (List.range 16).map (fun l => crcStep 0 (BitVec.ofNat 8 (16 * h + l)))

theorem test_crc_table_low : (List.range 8).map tableRow = tableLow := by decide

theorem test_crc_table_high : (List.range 8).map (fun h => tableRow (h + 8)) = tableHigh := by decide

/-- 95_test_vectors.md section 2.4, row 2. -/
theorem test_crcinit : (nextOf (exec .crcinit { bench good with crc := 0x92 })).map State.crc = some 0xFF := by decide

/-- 95_test_vectors.md section 2.4, rows 6 and 9. -/
theorem test_crcb : (nextOf (exec (.crcb 0xEF) { bench good with crc := 0x0C })).map State.crc = some 0x92 ∧
    (nextOf (exec (.crcb 0x5A) { bench good with crc := 0x5A })).map State.crc = some 0x00 := by decide

/-- 95_test_vectors.md section 2.4, row 1. -/
theorem test_crcrd : seen (exec .crcrd (bench good)) = some (0x0000, some ⟨true, 0xFF⟩) := by decide

/-! ### The framer -/

/-- 95_test_vectors.md sections 2.5 and 2.8. -/
theorem test_frame :
    (nextOf (exec (.frame 0x1234) (framed good))).map (fun t => (t.txAt 0, t.txAt 1)) = some (0x12, 0x34) ∧
    (nextOf (exec (.frame 0x00FF) (framed good))).map State.tx = some [(1, 0xFF)] := by decide

theorem test_frame_without_handle :
    seen (exec (.frame 0x365B) { bench good with err := .transportUnavailable }) =
      some (0x0104, some ⟨true, 0⟩) := by decide

/-- 95_test_vectors.md section 2.5, last but one row, and section 2.9. -/
theorem test_rdtx : seen (exec (.rdtx 0) (framed good)) = some (0x0005, some ⟨true, 0x36⟩) ∧
    seen (exec (.rdtx 1) (framed good)) = some (0x0005, some ⟨true, 0x5B⟩) ∧
    stopOf (exec (.rdtx 0) (bench good)) = some (.inr .noFrame) := by decide

/-! ### The parser -/

/-- 95_test_vectors.md program P1 line 5: `RX` is `GOOD`, the session stays `OPEN`, the frame was sent first byte first. -/
theorem test_xfer_ok : seen (exec .xfer (framed good)) = some (0x000D, some ⟨true, 0⟩) ∧
    (nextOf (exec .xfer (framed good))).map (fun t => (t.rxAt 0, t.rxAt 4, t.rxAt 17, t.calls)) =
      some (0x09, 0x8A, 0x6F, [.writeThenRead [0x36, 0x5B] 18]) := by decide

/-- 95_test_vectors.md program P7 line 9 (from `READY`), and section 2.9. -/
theorem test_xfer_fail_and_refused :
    seen (exec .xfer { decoded 0x0901 0x018A with ss := .ready, transfers := [some .fail] }) =
      some (0x0205, some ⟨false, 0⟩) ∧
    stopOf (exec .xfer { framed good with ss := .uninit }) = some (.inr .noHandle) ∧
    stopOf (exec .xfer { framed good with txv := false }) = some (.inr .noFrame) := by decide

/-- 60_exceptions.md R103: the answer never comes. -/
theorem test_silent_transport :
    stopOf (exec .xfer { framed good with transfers := [none] }) = some (.inl .transportSilent) ∧
    stopOf (exec .sopen { bench good with acquires := [none] }) = some (.inl .transportSilent) := by decide

/-- 95_test_vectors.md section 3 (`GOOD`) and section 2.9. -/
theorem test_rdrx : seen (exec (.rdrx 17) (received good)) = some (0x000D, some ⟨true, 0x6F⟩) ∧
    seen (exec (.rdrx 3) (received good)) = some (0x000D, some ⟨true, 0x01⟩) ∧
    stopOf (exec (.rdrx 0) (framed good)) = some (.inr .noResponse) := by decide

/-- 95_test_vectors.md program P7 lines 5 to 7, and program P2 lines 4 and 5. -/
theorem test_wchk : seen (exec (.wchk 2) (received tailBad)) = some (0x000D, some ⟨true, 0⟩) ∧
    seen (exec (.wchk 3) (received tailBad)) = some (0x002D, some ⟨true, 1⟩) ∧
    seen (exec (.wchk 5) (received tailBad)) = some (0x000D, some ⟨true, 0⟩) := by decide

theorem test_wchk_of_bad_word : seen (exec (.wchk 0) (received bad2)) = some (0x000D, some ⟨true, 0⟩) ∧
    seen (exec (.wchk 1) (received bad2)) = some (0x002D, some ⟨true, 1⟩) := by decide

/-- 95_test_vectors.md program P7 line 4: the tail is not examined. -/
theorem test_parse_ok : seen (exec .parse (received tailBad)) = some (0x001D, some ⟨true, 0⟩) ∧
    (nextOf (exec .parse (received tailBad))).map (fun t => (t.w0, t.w1)) = some (0x0901, 0x018A) := by decide

/-- 95_test_vectors.md program P2 line 6, and section 2.7: `W` is not written. -/
theorem test_parse_integrity_error :
    seen (exec .parse { received bad2 with wok := true }) = some (0x032D, some ⟨false, 0⟩) ∧
    (nextOf (exec .parse { received bad2 with w0 := 0x5555 })).map (fun t => (t.w0, t.dv)) =
      some (0x5555, false) := by decide

/-- 95_test_vectors.md program P1 lines 7 and 8, and section 2.9. -/
theorem test_rdw : seen (exec (.rdw 0) (decoded 0x0901 0x018A)) = some (0x001D, some ⟨true, 0x0901⟩) ∧
    seen (exec (.rdw 1) (decoded 0x0901 0x018A)) = some (0x001D, some ⟨true, 0x018A⟩) ∧
    stopOf (exec (.rdw 0) (received good)) = some (.inr .notDecoded) := by decide

/-- 95_test_vectors.md section 2.7, rows 1 and 4 (no sign effect). -/
theorem test_rdpid : seen (exec .rdpid (decoded 0x0901 0x018A)) = some (0x001D, some ⟨true, 0x0901018A⟩) ∧
    seen (exec .rdpid (decoded 0x8000 0x0000)) = some (0x001D, some ⟨true, 0x80000000⟩) := by decide

/-! ### The session -/

/-- 95_test_vectors.md section 2.8. -/
theorem test_idcmp_match : seen (exec .idcmp (decoded 0x0901 0x018A)) = some (0x001E, some ⟨true, 0⟩) := by decide

/-- 95_test_vectors.md section 2.8: low bit, bit 31, words exchanged. -/
theorem test_idcmp_mismatch : seen (exec .idcmp (decoded 0x0901 0x018B)) = some (0x041D, some ⟨false, 0⟩) ∧
    seen (exec .idcmp (decoded 0x8901 0x018A)) = some (0x041D, some ⟨false, 0⟩) ∧
    seen (exec .idcmp (decoded 0x018A 0x0901)) = some (0x041D, some ⟨false, 0⟩) := by decide

/-- 95_test_vectors.md program P5 line 6: `TXV` and `ERR` are cleared. -/
theorem test_sopen_acquired :
    seen (exec .sopen { framed good with err := .transportError }) = some (0x0001, some ⟨true, 0⟩) := by decide

/-- 95_test_vectors.md program P4 line 1. -/
theorem test_sopen_failed :
    seen (exec .sopen { decoded 0x0901 0x018A with acquires := [some .failed] }) =
      some (0x0100, some ⟨false, 0⟩) := by decide

/-- 95_test_vectors.md program P5 line 13. -/
theorem test_sclose : seen (exec .sclose { decoded 0x0901 0x018A with ss := .ready, wok := true }) =
    some (0x0000, some ⟨true, 0⟩) := by decide

/-- 95_test_vectors.md program P2 line 7 and program P4 line 2. -/
theorem test_rdst :
    seen (exec .rdst { received bad2 with wok := true, err := .integrityError }) =
      some (0x032D, some ⟨true, 0x0000032D⟩) ∧
    seen (exec .rdst { bench good with err := .transportUnavailable }) =
      some (0x0100, some ⟨true, 0x00000100⟩) := by decide

/-- 10_state.md R25: what a reset by the host leaves. -/
theorem test_host_reset :
    (nextOf (step { decoded 0x0901 0x018A with crc := 0x12, ss := .ready, inputs := [.reset] })).map
      (fun t => (t.crc, t.st, t.inputs)) = some (0xFF, 0x0000, []) := by decide

/-! ### Assembler lines (30_encoding.md R52 to R54; the lines are from 95_test_vectors.md section 3) -/

theorem test_assemble_operation :
    assembleLine (bench good).params "FRAME 0x365B        => ok=1 data=0x00000000 | ST=0005".toList =
      some [.frame 0x365B] ∧
    assembleLine (bench good).params "FRAME CMD_GET_PRODUCT_ID".toList = some [.frame 0x365B] ∧
    assembleLine (bench good).params "XFER <- ok GOOD ; the answer".toList = some [.xfer] ∧
    assembleLine (bench good).params "RDRX 18".toList = none := by decide

theorem test_assemble_pseudo :
    assembleLine (bench good).params "CRC8 0xBE, 239".toList =
      some [.crcinit, .crcb 0xBE, .crcb 0xEF, .crcrd] ∧
    assembleLine (bench good).params "OPEN".toList =
      some [.sopen, .frame 0x365B, .xfer, .parse, .idcmp] := by decide

/-! ### Witnesses: for each statement with hypotheses, concrete values that meet them all

For a statement over `exec i s = .next t` the witness gives a run that goes through, and for a clause over a refusal or
an error one that ends so. Where a range has an edge, the witness stands on it. -/

theorem goes {o : Host.Outcome State Fault Refusal} (h : (nextOf o).isSome = true) : ∃ t, o = .next t := by
  cases o with
  | next t => exact ⟨t, rfl⟩
  | fault _ => cases h
  | refused _ => cases h

/-- The relations hold with a decoded response, in `OPEN`. -/
theorem inv_decoded : Inv (decoded 0x0901 0x018A) where
  dv_rxv := by decide
  dv_words := by decide
  dv_crc := by decide
  ready_verified := by decide
  rxv_handle := by decide
  mismatch_found := by decide

/-- The relations hold in a verified session. -/
theorem inv_ready : Inv { decoded 0x0901 0x018A with ss := .ready } where
  dv_rxv := by decide
  dv_words := by decide
  dv_crc := by decide
  ready_verified := by decide
  rxv_handle := by decide
  mismatch_found := by decide

/-- The relations hold on the bench before a session. -/
theorem inv_bench : Inv (bench good) where
  dv_rxv := by decide
  dv_words := by decide
  dv_crc := by decide
  ready_verified := by decide
  rxv_handle := by decide
  mismatch_found := by decide

theorem witness_DecodeInvertsEncode :
    (Instr.rdrx 17).wellFormed = true ∧ (Instr.wchk 5).wellFormed = true ∧ (Instr.frame 0xFFFF).wellFormed = true ∧
    decode 0x700011 = .ok (.rdrx 17) ∧ decode 0x800005 = .ok (.wchk 5) ∧ decode 0x40FFFF = .ok (.frame 0xFFFF) := by
  decide

theorem witness_IllegalWordsAreRefused :
    IllegalWord 0xF00000 ∧ IllegalWord 0x010000 ∧ IllegalWord 0x200100 ∧ IllegalWord 0x700012 ∧
    IllegalWord 0x800006 ∧ ¬ IllegalWord 0x700011 ∧ ¬ IllegalWord 0x800005 ∧ ¬ IllegalWord 0x40FFFF := by
  refine ⟨?_, ?_, ?_, ?_, ?_, ?_, ?_, ?_⟩ <;> unfold IllegalWord <;> decide

theorem witness_DecodedWordsMatchTheirTableRow :
    decode 0x800005 = .ok (.wchk 5) ∧
    (0x800005 : ReqWord) &&& (Instr.wchk 0).tableMask = (Instr.wchk 0).tableMatch ∧
    (0x800005 : ReqWord) &&& (Instr.wchk 5).tableMask = (Instr.wchk 5).tableMatch := by decide

theorem witness_StepPerformsTheOldestInput :
    (bench good).inputs = [] ∧
    (∃ w xs i, ({ bench good with inputs := [.request 0x40365B, .reset] } : State).inputs = .request w :: xs ∧
      decode w = .ok i) ∧
    (∃ w xs why, ({ bench good with inputs := [.request 0xF00000, .reset] } : State).inputs = .request w :: xs ∧
      decode w = .error why) ∧
    (∃ xs, ({ bench good with inputs := [.reset, .request 0] } : State).inputs = .reset :: xs) :=
  ⟨rfl, ⟨0x40365B, _, .frame 0x365B, rfl, by decide⟩, ⟨0xF00000, _, .reservedSelector, rfl, by decide⟩, _, rfl⟩

theorem witness_PresentedWordsRunInOrder :
    ∀ i ∈ [Instr.sopen, .frame 0x365B, .rdrx 17, .wchk 5], i.wellFormed = true := by decide

theorem witness_CrcStepIsABijection : crcStep 0 0xEF = crcStep 0 0xEF ∧ crc8 [0xBE, 0xEF] = 0x92 := by decide

theorem witness_CrcIsLinearOverXor : ([0xBE, 0xEF] : List Byte).length = ([0x36, 0x5B] : List Byte).length := by decide

theorem witness_CrcDetectsOneAndTwoBitErrors : crc8 [0xBE, 0xEF] = 0x92 ∧ crc8 [0xFF, 0x00] = 0x00 := by decide

theorem witness_StreamingCrcIsUndisturbed :
    (Instr.crcinit ∉ [Instr.crcb 0xBE, .rdst, .parse, .crcb 0xEF] ∧
      ∃ t, runOps (.crcinit :: [.crcb 0xBE, .rdst, .parse, .crcb 0xEF]) (received good) = .next t) ∧
    (Instr.parse ≠ .crcinit ∧ Instr.parse ≠ .crcrd ∧ ∀ b, Instr.parse ≠ .crcb b) :=
  ⟨⟨by decide, goes (by decide)⟩, by decide, by decide, nofun⟩

theorem witness_RdtxAnswersAFrameByte : (framed good).txv = true ∧ (bench good).txv = false := by decide

theorem witness_ByteReadsAgreeWithHalves :
    (Inv (decoded 0x0901 0x018A) ∧ (decoded 0x0901 0x018A).dv = true) ∧
    ((∀ d, Instr.frame d ∉ [Instr.xfer, .parse]) ∧ Instr.sopen ∉ [Instr.xfer, .parse] ∧
      Instr.sclose ∉ [Instr.xfer, .parse] ∧ ∃ t, runOps (.frame 0x1234 :: [.xfer, .parse]) (framed good) = .next t) :=
  ⟨⟨inv_decoded, rfl⟩, by simp, by decide, by decide, goes (by decide)⟩

theorem witness_XferLoadsOrLosesTheResponse :
    ((framed good).ss ≠ .uninit ∧ (framed good).txv = true ∧ (framed good).transferAnswer = some (.ok good)) ∧
    ({ framed good with transfers := [some .fail] } : State).transferAnswer = some .fail ∧
    (bench good).ss = .uninit ∧ ({ framed good with txv := false } : State).txv = false := by decide

theorem witness_RdrxAnswersAResponseByte :
    (17 : BitVec 5).toNat ≤ 17 ∧ (received good).rxv = true ∧ (framed good).rxv = false ∧
    18 ≤ (18 : BitVec 5).toNat := by decide

theorem witness_WchkTestsOneWord :
    (5 : BitVec 3).toNat ≤ 5 ∧ (received good).rxv = true ∧ (framed good).rxv = false ∧
    6 ≤ (6 : BitVec 3).toNat := by decide

theorem witness_ParseDecodesOnlyValidWords :
    ((received good).rxv = true ∧ crc8 [(received good).rxAt 0, (received good).rxAt 1] = (received good).rxAt 2 ∧
      crc8 [(received good).rxAt 3, (received good).rxAt 4] = (received good).rxAt 5) ∧
    ((received bad2).rxv = true ∧ crc8 [(received bad2).rxAt 0, (received bad2).rxAt 1] ≠ (received bad2).rxAt 2) ∧
    (framed good).rxv = false := by decide

theorem witness_PidIsAssembledAroundTheCrcBytes :
    ∃ t, exec .parse (received good) = .next t ∧ t.dv = true := ⟨_, rfl, by decide⟩

theorem witness_TailWordsMatterToNoOtherOperation :
    (∀ a, a < 6 → Memory.byteAt (received tailBad).rx a = (received good).rxAt a) ∧
    Instr.parse ≠ .xfer ∧ (∀ j : BitVec 5, Instr.rdrx 5 = .rdrx j → j.toNat < 6) ∧
    (∀ k : BitVec 3, Instr.wchk 1 = .wchk k → k.toNat < 2) := by decide

theorem witness_RdwAnswersADecodedWord : (decoded 0x0901 0x018A).dv = true ∧ (received good).dv = false := by decide

theorem witness_RdpidAnswersTheIdentifier : (decoded 0x0901 0x018A).dv = true ∧ (received good).dv = false := by decide

theorem witness_OnlyParseMakesWordsReadable :
    (∃ t, exec .parse (received good) = .next t ∧ t.dv = true) ∧
    (∃ t, exec (.crcb 1) (decoded 0x0901 0x018A) = .next t ∧ t.dv = true) :=
  ⟨⟨_, rfl, by decide⟩, ⟨_, rfl, by decide⟩⟩

theorem witness_SopenDiscardsThenAcquires :
    (bench good).acquireAnswer = some .acquired ∧
    ({ bench good with acquires := [some .failed] } : State).acquireAnswer = some .failed := by decide

theorem witness_IdcmpComparesAllBits :
    ((decoded 0x0901 0x018A).dv = true ∧
      (decoded 0x0901 0x018A).w0 ++ (decoded 0x0901 0x018A).w1 = (decoded 0x0901 0x018A).params.expectedProductId) ∧
    ((decoded 0x8901 0x018A).dv = true ∧
      (decoded 0x8901 0x018A).w0 ++ (decoded 0x8901 0x018A).w1 ≠ (decoded 0x8901 0x018A).params.expectedProductId) ∧
    (received good).dv = false := by decide

theorem witness_LifecycleFollowsTheTable :
    (∃ t, exec .sopen (bench good) = .next t) ∧ (∃ t, exec .xfer (framed good) = .next t) ∧
    (∃ t, exec .parse (received bad2) = .next t) ∧ (∃ t, exec .idcmp (decoded 0x0901 0x018A) = .next t) ∧
    (∃ t, exec .sclose (bench good) = .next t) ∧ (∃ t, exec .rdst (bench good) = .next t) ∧
    (Inv (bench good) ∧ (bench good).ss = .uninit) ∧
    (∃ s, Inv s ∧ s.ss = .ready) :=
  ⟨goes (by decide), goes (by decide), goes (by decide), goes (by decide), goes (by decide), goes (by decide),
    ⟨inv_bench, rfl⟩, _, inv_ready, rfl⟩

theorem witness_OpenSequenceEndsAsTheTableSays :
    ((bench good).acquireAnswer = some .acquired ∧
      ({ bench good with draws := drawsAfter (bench good).acquires (bench good).draws } : State).transferAnswer =
        some (.ok good) ∧
      crc8 [good[0], good[1]] = good[2] ∧ crc8 [good[3], good[4]] = good[5] ∧
      good[0] ++ good[1] ++ good[3] ++ good[4] = (bench good).params.expectedProductId) ∧
    (({ bench good with acquires := [some .failed] } : State).acquireAnswer = some .failed) ∧
    (({ bench good with transfers := [some .fail] } : State).transferAnswer = some .fail) ∧
    ((bench bad2).transferAnswer = some (.ok bad2) ∧ crc8 [bad2[0], bad2[1]] ≠ bad2[2]) ∧
    ((bench other).transferAnswer = some (.ok other) ∧
      crc8 [other[0], other[1]] = other[2] ∧ crc8 [other[3], other[4]] = other[5] ∧
      other[0] ++ other[1] ++ other[3] ++ other[4] ≠ (bench other).params.expectedProductId) := by decide

theorem witness_VerificationCanBeRetried :
    (framed good).ss ≠ .uninit ∧ (framed good).txv = true ∧ (framed good).transferAnswer = some (.ok good) ∧
    crc8 [good[0], good[1]] = good[2] ∧ crc8 [good[3], good[4]] = good[5] ∧
    good[0] ++ good[1] ++ good[3] ++ good[4] = (framed good).params.expectedProductId := by decide

theorem witness_StaleWordsAreNeverRead :
    Instr.parse ∉ [Instr.frame 1, .crcrd] ∧
    (∃ t, runOps (.xfer :: [.frame 1, .crcrd]) { decoded 0x0901 0x018A with ss := .ready } = .next t) ∧
    (∃ t, runOps (.sopen :: [.frame 1, .crcrd]) (decoded 0x0901 0x018A) = .next t) ∧
    (∃ t, runOps (.sclose :: [.frame 1, .crcrd]) (decoded 0x0901 0x018A) = .next t) :=
  ⟨by decide, goes (by decide), goes (by decide), goes (by decide)⟩

theorem witness_NoTransactionWithoutAHandle :
    Inv (bench good) ∧ (bench good).ss = .uninit ∧ Instr.sopen ∉ [Instr.frame 1, .rdtx 0, .sclose] ∧
    ∃ t, runOps [.frame 1, .rdtx 0, .sclose] (bench good) = .next t :=
  ⟨inv_bench, rfl, by decide, goes (by decide)⟩

theorem witness_EveryOperationAnswersAsTabled :
    (∃ t, exec .rdst (bench good) = .next t) ∧ (∃ t, exec .crcrd (bench good) = .next t) ∧
    (∃ t, exec (.rdtx 1) (framed good) = .next t) ∧ (∃ t, exec (.rdrx 17) (received good) = .next t) ∧
    (∃ t, exec (.rdw 1) (decoded 1 2) = .next t) ∧ (∃ t, exec .rdpid (decoded 1 2) = .next t) ∧
    (∃ t, exec (.wchk 5) (received good) = .next t) ∧ (∃ t, exec .parse (received bad2) = .next t) ∧
    (∃ t, exec (.crcb 1) (bench good) = .next t) ∧ (∃ t, exec (.frame 1) (bench good) = .next t) :=
  ⟨goes (by decide), goes (by decide), goes (by decide), goes (by decide), goes (by decide), goes (by decide),
    goes (by decide), goes (by decide), goes (by decide), goes (by decide)⟩

theorem witness_OkBitAgreesWithErr :
    (sessionStep .idcmp = true ∧ ∃ t, exec .idcmp (decoded 1 2) = .next t) ∧
    (sessionStep .sclose = false ∧ ∃ t, exec .sclose (bench good) = .next t) :=
  ⟨⟨rfl, goes (by decide)⟩, rfl, goes (by decide)⟩

theorem witness_ErrorsHaveTheirCauses :
    (∃ t, exec .sopen { bench good with acquires := [some .failed] } = .next t ∧
      (t.responses.head?.map Response.ok) = some false) ∧
    (∃ t, exec .xfer { framed good with transfers := [some .fail] } = .next t ∧
      (t.responses.head?.map Response.ok) = some false) ∧
    (∃ t, exec .parse (received bad2) = .next t ∧ (t.responses.head?.map Response.ok) = some false) ∧
    (∃ t, exec .idcmp (decoded 1 2) = .next t ∧ (t.responses.head?.map Response.ok) = some false) ∧
    (∃ t, exec .parse (received good) = .next t ∧ (t.responses.head?.map Response.ok) = some true) ∧
    (∃ t, exec .sclose (bench good) = .next t ∧ (t.responses.head?.map Response.ok) = some true) ∧
    (∃ t, exec (.wchk 5) (received good) = .next t) :=
  ⟨⟨_, rfl, by decide⟩, ⟨_, rfl, by decide⟩, ⟨_, rfl, by decide⟩, ⟨_, rfl, by decide⟩, ⟨_, rfl, by decide⟩,
    ⟨_, rfl, by decide⟩, _, rfl⟩

theorem witness_RefusedExactlyWhenThePreconditionFails :
    (Instr.rdrx 17).wellFormed = true ∧ precondition (.rdrx 17) (received good) ∧
    transportAnswers (.rdrx 17) (received good) ∧ ¬ precondition (.rdrx 17) (framed good) ∧
    precondition .xfer (framed good) ∧ transportAnswers .xfer (framed good) := by
  unfold precondition transportAnswers
  decide

theorem witness_SilentTransportLeavesNoNextState :
    ({ bench good with acquires := [none] } : State).acquireAnswer = none ∧
    (framed good).ss ≠ .uninit ∧ (framed good).txv = true ∧
    ({ framed good with transfers := [none] } : State).transferAnswer = none := by decide

theorem witness_OperandsOutsideTheBufferStop :
    18 ≤ (18 : BitVec 5).toNat ∧ 6 ≤ (6 : BitVec 3).toNat ∧ (received good).rxv = true := by decide

theorem witness_OnlyTheListedOperationsWrite :
    (∃ t, exec .parse (received good) = .next t) ∧ (∃ t, exec .crcinit (bench good) = .next t) ∧
    (∃ t, exec .sopen (bench good) = .next t) ∧ (∃ t, exec .xfer (framed good) = .next t) :=
  ⟨goes (by decide), goes (by decide), goes (by decide), goes (by decide)⟩

theorem witness_ReadsHaveNoSideEffect :
    (∃ t, exec (.rdw 1) (decoded 1 2) = .next t) ∧ (∃ t, exec (.wchk 5) (received good) = .next t) ∧
    (∃ t, exec .parse (received good) = .next t) :=
  ⟨goes (by decide), goes (by decide), goes (by decide)⟩

theorem witness_EveryStepKeepsTheStateRelations :
    Inv { decoded 0x0901 0x018A with ss := .ready, inputs := [.request 0xC00000] } ∧
    ∃ t, step { decoded 0x0901 0x018A with ss := .ready, inputs := [.request 0xC00000] } = .next t :=
  ⟨⟨by decide, by decide, by decide, by decide, by decide, by decide⟩, goes (by decide)⟩

theorem witness_LaunchStatesMeetTheStateRelations :
    Launch { bench good with tx := [(0, 0x55)], rx := [(17, 0x55)], w0 := 0x1234 } :=
  ⟨rfl, rfl, rfl, rfl, rfl, rfl, rfl⟩

theorem witness_EveryStepKeepsBuffersCanonical :
    BuffersCanonical { framed good with inputs := [.request 0x600000] } ∧
    ∃ t, step { framed good with inputs := [.request 0x600000] } = .next t :=
  ⟨⟨by decide, by decide⟩, goes (by decide)⟩

theorem witness_LaunchStatesReadNothingUnspecified :
    (Launch { bench good with tx := [(0, 0x55)], rx := [(17, 0x55)], w0 := 0x1234 } ∧
      transportAnswers .sopen { bench good with tx := [(0, 0x55)], rx := [(17, 0x55)], w0 := 0x1234 }) ∧
    ({ bench good with inputs := [.reset] } : State).inputs = .reset :: [] :=
  ⟨⟨⟨rfl, rfl, rfl, rfl, rfl, rfl, rfl⟩, by unfold transportAnswers; decide⟩, rfl⟩

theorem witness_NoStepChangesTheParameters :
    ∃ t, step { bench good with inputs := [.request 0xD00000] } = .next t := goes (by decide)

end Sys2Proof.Tests
end

/-! The relations of 10_state.md R21: what they read, how each kind of operation keeps them, and the codes in `ST`. -/

namespace Sys2Proof.Machine

variable {s t : State}

/-! ### What the relations read -/

/-- The fields that `Inv` speaks of. The others may change freely. -/
def State.related (s : State) : Memory × Half × Half × SessionState × Bool × Bool × ErrorCode × Params :=
  (s.rx, s.w0, s.w1, s.ss, s.rxv, s.dv, s.err, s.params)

theorem Inv.congr (h : Inv s) (e : t.related = s.related) : Inv t := by
  cases s
  cases t
  simp only [State.related, Prod.mk.injEq] at e
  obtain ⟨rfl, rfl, rfl, rfl, rfl, rfl, rfl, rfl⟩ := e
  exact ⟨h.dv_rxv, h.dv_words, h.dv_crc, h.ready_verified, h.rxv_handle, h.mismatch_found⟩

/-- With `DV = 0` only `SS`, `ERR` and `RXV` are left to speak of. This is the case of every operation
that drops the decoded words. -/
theorem inv_of_not_decoded (hdv : s.dv = false) (hss : s.ss ≠ .ready) (herr : s.err ≠ .identityMismatch)
    (hrxv : s.rxv = true → s.ss ≠ .uninit) : Inv s where
  dv_rxv h := by simp [hdv] at h
  dv_words h := by simp [hdv] at h
  dv_crc h := by simp [hdv] at h
  ready_verified h := absurd h hss
  rxv_handle := hrxv
  mismatch_found h := absurd h herr

/-! ### The operations that touch the related fields -/

theorem inv_endTransfer (s : State) (a : TransferAnswer) : Inv (s.beginTransfer.askTransfer.endTransfer a) := by
  cases a <;> exact inv_of_not_decoded rfl nofun nofun nofun

theorem inv_endAcquire (s : State) (a : AcquireAnswer) : Inv (s.discardSession.askAcquire.endAcquire a) := by
  cases a <;> exact inv_of_not_decoded rfl nofun nofun nofun

theorem inv_discardSession_succeed (s : State) : Inv s.discardSession.succeed :=
  inv_of_not_decoded rfl nofun nofun nofun

theorem inv_hostReset (s : State) : Inv s.hostReset :=
  inv_of_not_decoded rfl nofun nofun nofun

/-- Decoding again what is decoded already changes nothing: `W` mirrors `RX` while `DV = 1`. -/
theorem Inv.decodeWords_eq (h : Inv s) (hdv : s.dv = true) : s.decodeWords = s := by
  obtain ⟨hw0, hw1⟩ := h.dv_words hdv
  simp only [State.decodeWords, joinBytes, ← hw0, ← hw1, ← hdv]

/-- A successful `PARSE`. From `READY` the words were decoded and verified before, so `PID` stays the expected one. -/
theorem Inv.decodeWords_succeed (h : Inv s) (hrxv : s.rxv = true) (hv : s.bothWordsValid = true) :
    Inv s.decodeWords.succeed where
  dv_rxv _ := hrxv
  dv_words _ := ⟨rfl, rfl⟩
  dv_crc _ := bothWordsValid_iff.1 hv
  ready_verified hss := by
    obtain ⟨hdv, hpid⟩ := h.ready_verified hss
    rw [h.decodeWords_eq hdv]
    exact ⟨hdv, hpid⟩
  rxv_handle := h.rxv_handle
  mismatch_found := nofun

theorem inv_integrityError (s : State) :
    Inv (State.raise { s with dv := false, ss := .opened } .integrityError) :=
  inv_of_not_decoded rfl nofun nofun nofun

/-- An `IDCMP` that matches. -/
theorem Inv.identityMatch (h : Inv s) (hdv : s.dv = true) (hm : s.identityMatches = true) :
    Inv (State.succeed { s with ss := .ready }) where
  dv_rxv := h.dv_rxv
  dv_words := h.dv_words
  dv_crc := h.dv_crc
  ready_verified _ := ⟨hdv, identityMatches_iff.1 hm⟩
  rxv_handle _ := nofun
  mismatch_found := nofun

/-- An `IDCMP` that does not match. -/
theorem Inv.identityMismatch (h : Inv s) (hdv : s.dv = true) (hm : s.identityMatches = false) :
    Inv (State.raise { s with ss := .opened } .identityMismatch) where
  dv_rxv := h.dv_rxv
  dv_words := h.dv_words
  dv_crc := h.dv_crc
  ready_verified := nofun
  rxv_handle _ := nofun
  mismatch_found _ := ⟨hdv, fun e => Bool.false_ne_true (hm.symm.trans (identityMatches_iff.2 e))⟩

/-! ### Every operation, every step -/

theorem exec_keeps_inv : ∀ (i : Instr) (s t : State), exec i s = .next t → Inv s → Inv t :=
  exec_next_cases (P := fun _ s t => Inv s → Inv t)
    (h0 := fun _ h => h.congr rfl)
    (h1 := fun _ h => h.congr rfl)
    (h2 := fun _ _ h => h.congr rfl)
    (h3 := fun _ h => h.congr rfl)
    (h4 := fun _ _ h => h.congr rfl)
    (h5 := fun _ _ _ h => h.congr rfl)
    (h6 := fun s a _ _ _ _ => inv_endTransfer s a)
    (h7 := fun _ _ _ _ h => h.congr rfl)
    (h8 := fun _ _ _ _ h => h.congr rfl)
    (h9 := fun _ hrxv hv h => h.decodeWords_succeed hrxv hv)
    (h9' := fun s _ _ _ => inv_integrityError s)
    (hA := fun _ _ _ h => h.congr rfl)
    (hB := fun _ _ h => h.congr rfl)
    (hC := fun _ hdv hm h => h.identityMatch hdv hm)
    (hC' := fun _ hdv hm h => h.identityMismatch hdv hm)
    (hD := fun s a _ _ => inv_endAcquire s a)
    (hE := fun s _ => inv_discardSession_succeed s)

theorem step_keeps_inv (h : Inv s) (hs : step s = .next t) : Inv t := by
  obtain ⟨-, rfl⟩ | ⟨xs, -, rfl⟩ | ⟨w, xs, i, -, -, he⟩ := step_next.1 hs
  · exact h
  · exact inv_hostReset _
  · exact exec_keeps_inv i _ t he (h.congr rfl)

/-! ### The codes in `ST` -/

theorem SessionState.code_ne_three (ss : SessionState) : ss.code ≠ 3 := by cases ss <;> decide

theorem ErrorCode.code_le_four (e : ErrorCode) : e.code.toNat ≤ 4 := by cases e <;> decide

/-- The field `SS` of `ST`, its lowest two bits (10_state.md R13). -/
theorem State.st_ss (s : State) : s.st.extractLsb' 0 2 = s.ss.code :=
  BitVec.extractLsb'_append_eq_right

/-- The field `ERR` of `ST`, above the reserved bits and the flags (10_state.md R13). -/
theorem State.st_err (s : State) : s.st.extractLsb' 8 3 = s.err.code := by
  simp (disch := omega) only [State.st, BitVec.extractLsb'_append_eq_of_le, Nat.reduceSub]
  exact BitVec.extractLsb'_append_eq_right

/-- Settles O46: an operation keeps the relations case by case (`exec_keeps_inv`), and the codes in `ST` are those
of the session state and of the error. -/
theorem everyStepKeepsTheStateRelations : Obligations.EveryStepKeepsTheStateRelations :=
  ⟨fun _ _ => step_keeps_inv,
    fun s => ⟨s.st_ss ▸ s.ss.code_ne_three, s.st_err ▸ s.err.code_le_four⟩⟩

end Sys2Proof.Machine

/-! Byte reads against 16-bit values (20_memory.md R34), and what reading twice does (R38). -/

namespace Sys2Proof.Machine

variable {s t : State}

/-! ### Sequences of operations -/

/-- What each operation of a sequence keeps holds after the sequence. -/
theorem runOps_keeps {P : State → Prop} {ops : List Instr}
    (hP : ∀ i ∈ ops, ∀ s t, exec i s = .next t → P s → P t) (h : runOps ops s = .next t) (hs : P s) : P t := by
  induction ops generalizing s with
  | nil => cases h; exact hs
  | cons i is ih =>
    obtain ⟨u, hi, his⟩ := runOps_cons_next.1 h
    exact ih (fun j hj => hP j (List.mem_cons_of_mem i hj)) his (hP i List.mem_cons_self s u hi hs)

/-- No operation but `FRAME`, `SOPEN` and `SCLOSE` touches the frame or its valid flag (10_state.md R9, R14). -/
theorem exec_keeps_frame : ∀ (i : Instr) (s t : State), exec i s = .next t →
    (∀ c, i ≠ .frame c) → i ≠ .sopen → i ≠ .sclose → t.tx = s.tx ∧ t.txv = s.txv :=
  exec_next_cases
    (P := fun i s t => (∀ c, i ≠ .frame c) → i ≠ .sopen → i ≠ .sclose → t.tx = s.tx ∧ t.txv = s.txv)
    (h0 := fun _ _ _ _ => ⟨rfl, rfl⟩)
    (h1 := fun _ _ _ _ => ⟨rfl, rfl⟩)
    (h2 := fun _ _ _ _ _ => ⟨rfl, rfl⟩)
    (h3 := fun _ _ _ _ => ⟨rfl, rfl⟩)
    (h4 := fun c _ hframe _ _ => absurd rfl (hframe c))
    (h5 := fun _ _ _ _ _ _ => ⟨rfl, rfl⟩)
    (h6 := fun _ a _ _ _ _ _ _ => by cases a <;> exact ⟨rfl, rfl⟩)
    (h7 := fun _ _ _ _ _ _ _ => ⟨rfl, rfl⟩)
    (h8 := fun _ _ _ _ _ _ _ => ⟨rfl, rfl⟩)
    (h9 := fun _ _ _ _ _ _ => ⟨rfl, rfl⟩)
    (h9' := fun _ _ _ _ _ _ => ⟨rfl, rfl⟩)
    (hA := fun _ _ _ _ _ _ => ⟨rfl, rfl⟩)
    (hB := fun _ _ _ _ _ => ⟨rfl, rfl⟩)
    (hC := fun _ _ _ _ _ _ => ⟨rfl, rfl⟩)
    (hC' := fun _ _ _ _ _ _ => ⟨rfl, rfl⟩)
    (hD := fun _ _ _ _ hsopen _ => absurd rfl hsopen)
    (hE := fun _ _ _ hsclose => absurd rfl hsclose)

/-- A sequence without `FRAME`, `SOPEN` and `SCLOSE` leaves the frame and its valid flag alone. -/
theorem runOps_keeps_frame {ops : List Instr} (hframe : ∀ c, Instr.frame c ∉ ops) (hsopen : Instr.sopen ∉ ops)
    (hsclose : Instr.sclose ∉ ops) (h : runOps ops s = .next t) : t.tx = s.tx ∧ t.txv = s.txv := by
  refine runOps_keeps (P := fun u => u.tx = s.tx ∧ u.txv = s.txv) ?_ h ⟨rfl, rfl⟩
  rintro i hi u v he ⟨htx, htxv⟩
  obtain ⟨htx', htxv'⟩ := exec_keeps_frame i u v he
    (fun c e => hframe c (e ▸ hi)) (fun e => hsopen (e ▸ hi)) (fun e => hsclose (e ▸ hi))
  exact ⟨htx'.trans htx, htxv'.trans htxv⟩

/-! ### Bytes and 16-bit values -/

/-- While `DV = 1` the bytes of `RX` that `PARSE` decoded are the halves of `W`, high byte first (10_state.md R21
item 2). -/
theorem Inv.rxAt_of_decoded (h : Inv s) (hdv : s.dv = true) :
    s.rxAt 0 = hiByte s.w0 ∧ s.rxAt 1 = loByte s.w0 ∧ s.rxAt 3 = hiByte s.w1 ∧ s.rxAt 4 = loByte s.w1 := by
  obtain ⟨hw0, hw1⟩ := h.dv_words hdv
  rw [hw0, hw1]
  exact ⟨BitVec.extractLsb'_append_eq_left.symm, BitVec.extractLsb'_append_eq_right.symm,
    BitVec.extractLsb'_append_eq_left.symm, BitVec.extractLsb'_append_eq_right.symm⟩

/-- `RDRX j` answers the byte that `RX[j]` is known to be. -/
theorem exec_rdrx_of_rxAt {j : BitVec 5} {b : Byte} (hrxv : s.rxv = true) (hj : j.toNat ≤ 17)
    (hb : s.rxAt j.toNat = b) : exec (.rdrx j) s = .next (s.answer true (zextByte b)) :=
  execRdrx_next.2 ⟨hrxv, hj, by rw [hb]⟩

/-- `RDTX i` answers the byte that `TX[i]` is known to be. -/
theorem exec_rdtx_of_txAt {i : BitVec 1} {b : Byte} (htxv : s.txv = true) (hb : s.txAt i.toNat = b) :
    exec (.rdtx i) s = .next (s.answer true (zextByte b)) :=
  execRdtx_next.2 ⟨htxv, by rw [hb]⟩

/-- A buffer that `FRAME c` has filled holds the high byte of `c`, then the low one (41_framer.md R67). -/
theorem txAt_of_frame {c : Half} (h : s.tx = Memory.fill [hiByte c, loByte c]) :
    s.txAt 0 = hiByte c ∧ s.txAt 1 = loByte c := by
  simp only [State.txAt, h, Memory.byteAt_fill]
  exact ⟨rfl, rfl⟩

/-- Settles O19: under `Inv` with `DV = 1` the bytes of `RX` are the halves of `W` (`Inv.rxAt_of_decoded`), and what
`FRAME` stored is still there after the run (`runOps_keeps_frame`). -/
theorem byteReadsAgreeWithHalves : Obligations.ByteReadsAgreeWithHalves := by
  refine ⟨fun s hinv hdv => ?_, fun c ops s t hframe hsopen hsclose hrun => ?_⟩
  · have hrxv := hinv.dv_rxv hdv
    obtain ⟨hi0, lo0, hi1, lo1⟩ := hinv.rxAt_of_decoded hdv
    exact ⟨execRdw_next.2 ⟨hdv, rfl⟩, execRdw_next.2 ⟨hdv, rfl⟩,
      exec_rdrx_of_rxAt hrxv (by decide) hi0, exec_rdrx_of_rxAt hrxv (by decide) lo0,
      exec_rdrx_of_rxAt hrxv (by decide) hi1, exec_rdrx_of_rxAt hrxv (by decide) lo1⟩
  · obtain ⟨u, hu, hops⟩ := runOps_cons_next.1 hrun
    cases hu
    obtain ⟨htx, htxv⟩ := runOps_keeps_frame hframe hsopen hsclose hops
    obtain ⟨hhi, hlo⟩ := txAt_of_frame htx
    exact ⟨exec_rdtx_of_txAt htxv hhi, exec_rdtx_of_txAt htxv hlo⟩

/-! ### Doing an operation twice -/

/-- A read only logs its answer, and no read looks at the log: the second one answers the same. -/
theorem exec_read_twice {i : Instr}
    (hi : i = .rdst ∨ i = .crcrd ∨ (∃ k, i = .rdtx k) ∨ (∃ j, i = .rdrx j) ∨ (∃ k, i = .rdw k) ∨ i = .rdpid)
    (h : exec i s = .next t) :
    ∃ d, t = s.answer true d ∧ exec i t = .next ((s.answer true d).answer true d) := by
  rcases hi with rfl | rfl | ⟨k, rfl⟩ | ⟨j, rfl⟩ | ⟨k, rfl⟩ | rfl
  · cases h
    exact ⟨_, rfl, rfl⟩
  · cases h
    exact ⟨_, rfl, rfl⟩
  · obtain ⟨htxv, rfl⟩ := execRdtx_next.1 h
    exact ⟨_, rfl, execRdtx_next.2 ⟨htxv, rfl⟩⟩
  · obtain ⟨hrxv, hj, rfl⟩ := execRdrx_next.1 h
    exact ⟨_, rfl, execRdrx_next.2 ⟨hrxv, hj, rfl⟩⟩
  · obtain ⟨hdv, rfl⟩ := execRdw_next.1 h
    exact ⟨_, rfl, execRdw_next.2 ⟨hdv, rfl⟩⟩
  · obtain ⟨hdv, rfl⟩ := execRdpid_next.1 h
    exact ⟨_, rfl, execRdpid_next.2 ⟨hdv, rfl⟩⟩

/-- `WCHK` writes `WOK` from `RX`, which it leaves alone: the second one finds the flag written already. -/
theorem execWchk_twice {k : BitVec 3} (h : execWchk k s = .next t) :
    ∃ d, t = State.answer { s with wok := t.wok } true d ∧ execWchk k t = .next (t.answer true d) := by
  obtain ⟨hrxv, hk, rfl⟩ := execWchk_next.1 h
  exact ⟨_, rfl, execWchk_next.2 ⟨hrxv, hk, rfl⟩⟩

/-- `PARSE` writes `W` and the flags from `RX`, which it leaves alone: the second one takes the same branch, and finds
everything written already. -/
theorem execParse_twice (h : execParse s = .next t) :
    t.rx = s.rx ∧ ∃ ok, t.responses = ⟨ok, 0⟩ :: s.responses ∧ execParse t = .next (t.answer ok 0) := by
  obtain ⟨hrxv, ⟨hvalid, rfl⟩ | ⟨hinvalid, rfl⟩⟩ := execParse_next.1 h
  · exact ⟨rfl, true, rfl, execParse_next.2 ⟨hrxv, .inl ⟨hvalid, rfl⟩⟩⟩
  · exact ⟨rfl, false, rfl, execParse_next.2 ⟨hrxv, .inr ⟨hinvalid, rfl⟩⟩⟩

/-- Settles O45: each of the reads, `WCHK` and `PARSE` does the second time what it did the first. -/
theorem readsHaveNoSideEffect : Obligations.ReadsHaveNoSideEffect := by
  refine ⟨fun i s t hi h => exec_read_twice hi h, fun k s t h => ?_, fun s t h => ?_⟩
  · obtain ⟨d, ht, htwice⟩ := execWchk_twice h
    exact ⟨⟨true, d⟩, ht, htwice⟩
  · obtain ⟨hrx, ok, hlog, htwice⟩ := execParse_twice h
    exact ⟨hrx, ⟨ok, 0⟩, hlog, htwice⟩

end Sys2Proof.Machine

/-! The encoder and the decoder of the request word (30_encoding.md R46 to R55): fields, what each form of operand
decodes to, and which words are illegal. -/

namespace Sys2Proof.Machine

variable {w : ReqWord} {i : Instr}

/-! ### The three fields of a request word -/

theorem op_encode (i : Instr) : ReqWord.op (encode i) = i.selector := by
  simp (disch := omega) only [ReqWord.op, encode, BitVec.extractLsb'_append_eq_of_le, Nat.reduceSub]
  exact BitVec.extractLsb'_eq_self

theorem z_encode (i : Instr) : ReqWord.z (encode i) = 0 := by
  simp (disch := omega) only [ReqWord.z, encode, BitVec.extractLsb'_append_eq_of_le, Nat.reduceSub]
  exact BitVec.extractLsb'_append_eq_right

theorem arg_encode (i : Instr) : ReqWord.arg (encode i) = i.operand :=
  BitVec.extractLsb'_append_eq_right

/-- A request word is its fields, side by side (30_encoding.md R46). -/
theorem fields_append (w : ReqWord) : ReqWord.op w ++ ReqWord.z w ++ ReqWord.arg w = w := by
  have hopz : ReqWord.op w ++ ReqWord.z w = w.extractLsb' 16 8 :=
    BitVec.extractLsb'_append_extractLsb'_eq_extractLsb' (by omega)
  have hword : w.extractLsb' 16 8 ++ ReqWord.arg w = w.extractLsb' 0 24 :=
    BitVec.extractLsb'_append_extractLsb'_eq_extractLsb' (by omega)
  rw [hopz, hword, BitVec.extractLsb'_eq_self]

/-- A word with `z = 0` and an operation's selector and operand is that operation's encoding. -/
theorem encode_eq_of_fields (hz : ReqWord.z w = 0) (hop : ReqWord.op w = i.selector)
    (harg : ReqWord.arg w = i.operand) : encode i = w := by
  rw [← fields_append w, hop, hz, harg]
  rfl

/-- Fields side by side are fields shifted into place (30_encoding.md R55). -/
theorem encode_eq_shift_or (i : Instr) : encode i = (i.selector.setWidth 24 <<< 20) ||| i.operand.setWidth 24 := by
  have hz : (0 : BitVec 4).setWidth 24 = 0#24 := rfl
  rw [← BitVec.setWidth_eq (encode i), encode, BitVec.setWidth_append_eq_shiftLeft_setWidth_or,
    BitVec.setWidth_append_eq_shiftLeft_setWidth_or, hz, BitVec.or_zero, ← BitVec.shiftLeft_add]

/-- The conditions of 30_encoding.md R50, read off the fields. -/
theorem illegalWord_iff : IllegalWord w ↔
    ReqWord.op w = 0xF ∨ ReqWord.z w ≠ 0 ∨ ReqWord.arg w &&& zeroArgBits (ReqWord.op w) ≠ 0 ∨
    (ReqWord.op w = 0x7 ∧ 18 ≤ ((ReqWord.arg w).setWidth 5).toNat) ∨
    (ReqWord.op w = 0x8 ∧ 6 ≤ ((ReqWord.arg w).setWidth 3).toNat) := by
  simp (disch := omega) only [ReqWord.arg, BitVec.setWidth_extractLsb'_of_le]
  rfl

/-- The encoding of an operation is illegal exactly when its operand is outside its range (30_encoding.md R48, R50). -/
theorem illegalWord_encode_iff : IllegalWord (encode i) ↔ i.wellFormed = false := by
  rw [illegalWord_iff, op_encode, z_encode, arg_encode]
  cases i with
  | frame c => simp [Instr.selector, Instr.wellFormed, zeroArgBits]
  | crcb b => revert b; decide
  | rdtx k | rdw k => revert k; decide
  | rdrx j => revert j; decide
  | wchk k => revert k; decide
  | rdst | crcinit | crcrd | xfer | parse | rdpid | idcmp | sopen | sclose => decide

/-! ### Operands in the low bits of `arg` -/

/-- The bits from `n` up are 0 exactly when the number fits in `n` bits. -/
theorem ushiftRight_eq_zero_iff {arg : BitVec 16} {n : Nat} : arg >>> n = 0 ↔ arg.toNat < 2 ^ n := by
  rw [BitVec.toNat_eq, BitVec.toNat_ushiftRight, Nat.shiftRight_eq_div_pow]
  exact Nat.div_eq_zero_iff_lt (Nat.two_pow_pos n)

/-- The mask over the bits from `n` up finds every 1 there. -/
theorem ushiftRight_eq_zero_of_mask {arg : BitVec 16} {n : Nat} (h : arg &&& BitVec.allOnes 16 <<< n = 0) :
    arg >>> n = 0 := by
  ext i hi
  rw [← BitVec.shiftLeft_ushiftRight] at h
  have hbit : (arg >>> n <<< n).getLsbD (n + i) = false := by rw [h]; exact BitVec.getLsbD_zero
  by_cases hlt : n + i < 16
  · simpa [hlt] using hbit
  · simpa using BitVec.getLsbD_of_ge arg _ (not_lt.1 hlt)

theorem decodeLow_setWidth {n : Nat} (h : n ≤ 16) (x : BitVec n) (f : BitVec n → Instr) :
    decodeLow n (x.setWidth 16) f = .ok (f x) := by
  have hfits : (x.setWidth 16) >>> n = 0 :=
    ushiftRight_eq_zero_iff.2 (BitVec.toNat_setWidth_of_le h ▸ x.isLt)
  simp [decodeLow, hfits, h]

/-- The decoder finds an operation again in its encoding. -/
theorem decode_encode (h : i.wellFormed = true) : decode (encode i) = .ok i := by
  simp only [decode, op_encode, z_encode, arg_encode]
  cases i with
  | frame c => rfl
  | crcb x | rdtx x | rdw x => exact decodeLow_setWidth (by omega) x _
  | rdrx x | wchk x => simp [Instr.operand, Instr.selector, decodeLow_setWidth, checkRange, h]
  | rdst | crcinit | crcrd | xfer | parse | rdpid | idcmp | sopen | sclose => rfl

/-! ### What the decoder answers -/

/-- A right answer of the decoder on a word: the well-formed operation that the word encodes, or, where the word is
illegal, an error. -/
def DecodesTo (w : ReqWord) : Except Illegal Instr → Prop
  | .ok i => i.wellFormed = true ∧ encode i = w
  | .error _ => IllegalWord w

/-- An operation without operand. -/
theorem decodesTo_decodeBare (hz : ReqWord.z w = 0) (hop : ReqWord.op w = i.selector) (hwf : i.wellFormed = true)
    (hoperand : i.operand = 0) (hmask : zeroArgBits i.selector = BitVec.allOnes 16) :
    DecodesTo w (decodeBare (ReqWord.arg w) i) := by
  unfold decodeBare
  split
  case isTrue harg => exact ⟨hwf, encode_eq_of_fields hz hop (harg.trans hoperand.symm)⟩
  case isFalse harg =>
    refine illegalWord_iff.2 (.inr (.inr (.inl ?_)))
    rwa [hop, hmask, BitVec.and_allOnes]

/-- An operand in the low `n` bits: either the word is the encoding of an operation, or a bit above them is 1. -/
theorem decodeLow_cases {n : Nat} {f : BitVec n → Instr} (hz : ReqWord.z w = 0)
    (hop : ∀ x, ReqWord.op w = (f x).selector) (hoperand : ∀ x, (f x).operand = x.setWidth 16)
    (hmask : ∀ x, zeroArgBits (f x).selector = BitVec.allOnes 16 <<< n) :
    (∃ x, decodeLow n (ReqWord.arg w) f = .ok (f x) ∧ encode (f x) = w) ∨
    (∃ why, decodeLow n (ReqWord.arg w) f = .error why ∧ IllegalWord w) := by
  unfold decodeLow
  split
  case isTrue harg =>
    refine .inl ⟨_, rfl, encode_eq_of_fields hz (hop _) ?_⟩
    rw [hoperand]
    apply BitVec.eq_of_toNat_eq
    have hlt := ushiftRight_eq_zero_iff.1 harg
    rw [BitVec.toNat_setWidth, BitVec.toNat_setWidth, Nat.mod_eq_of_lt hlt, Nat.mod_eq_of_lt (ReqWord.arg w).isLt]
  case isFalse harg =>
    refine .inr ⟨_, rfl, illegalWord_iff.2 (.inr (.inr (.inl ?_)))⟩
    rw [hop 0, hmask 0]
    exact mt ushiftRight_eq_zero_of_mask harg

/-- An operand whose range is its whole field. -/
theorem decodesTo_decodeLow {n : Nat} {f : BitVec n → Instr} (hz : ReqWord.z w = 0)
    (hop : ∀ x, ReqWord.op w = (f x).selector) (hwf : ∀ x, (f x).wellFormed = true)
    (hoperand : ∀ x, (f x).operand = x.setWidth 16)
    (hmask : ∀ x, zeroArgBits (f x).selector = BitVec.allOnes 16 <<< n) :
    DecodesTo w (decodeLow n (ReqWord.arg w) f) := by
  obtain ⟨x, hd, hw⟩ | ⟨why, hd, hw⟩ := decodeLow_cases hz hop hoperand hmask
  · rw [hd]; exact ⟨hwf x, hw⟩
  · rw [hd]; exact hw

/-- An operand whose range is narrower than its field. -/
theorem decodesTo_checkRange {n : Nat} {f : BitVec n → Instr} (why : Illegal) (hz : ReqWord.z w = 0)
    (hop : ∀ x, ReqWord.op w = (f x).selector) (hoperand : ∀ x, (f x).operand = x.setWidth 16)
    (hmask : ∀ x, zeroArgBits (f x).selector = BitVec.allOnes 16 <<< n) :
    DecodesTo w (checkRange why (decodeLow n (ReqWord.arg w) f)) := by
  obtain ⟨x, hd, rfl⟩ | ⟨e, hd, hw⟩ := decodeLow_cases hz hop hoperand hmask
  · rw [hd, checkRange]
    split
    case isTrue hwf => exact ⟨hwf, rfl⟩
    case isFalse hwf => exact illegalWord_encode_iff.2 (Bool.eq_false_iff.2 hwf)
  · rw [hd]; exact hw

/-- The decoder answers right on every word: `z`, then `FRAME`, the two operations whose operand has a range, the other
operands, the operations without operand, and the selector that is left over. -/
theorem decodesTo_decode (w : ReqWord) : DecodesTo w (decode w) := by
  unfold decode
  split
  case isTrue hz => exact illegalWord_iff.2 (.inr (.inl hz))
  case isFalse hz =>
    have hz := not_not.1 hz
    have selected {v : BitVec 4} (h : (ReqWord.op w).toNat = v.toNat) : ReqWord.op w = v := BitVec.eq_of_toNat_eq h
    split
    case h_5 h => exact ⟨rfl, encode_eq_of_fields hz (selected h) rfl⟩
    case h_8 h | h_9 h =>
      exact decodesTo_checkRange _ hz (fun _ => selected h) (fun _ => rfl) (fun _ => rfl)
    case h_3 h | h_6 h | h_11 h =>
      exact decodesTo_decodeLow hz (fun _ => selected h) (fun _ => rfl) (fun _ => rfl) (fun _ => rfl)
    case h_1 h | h_2 h | h_4 h | h_7 h | h_10 h | h_12 h | h_13 h | h_14 h | h_15 h =>
      exact decodesTo_decodeBare hz (selected h) rfl rfl rfl
    case h_16 =>
      refine illegalWord_iff.2 (.inl (selected ?_))
      have hlt := (ReqWord.op w).isLt
      simp only [imp_false] at *
      change (ReqWord.op w).toNat = 15
      omega

theorem decode_ok_iff : decode w = .ok i ↔ i.wellFormed = true ∧ encode i = w := by
  constructor
  · intro h
    have hw := decodesTo_decode w
    rwa [h] at hw
  · rintro ⟨hwf, rfl⟩
    exact decode_encode hwf

/-- The decoder's errors are the illegal words (30_encoding.md R50). -/
theorem decode_error_iff : (∃ why, decode w = .error why) ↔ IllegalWord w := by
  have hw := decodesTo_decode w
  cases hd : decode w with
  | error why =>
    rw [hd] at hw
    exact ⟨fun _ => hw, fun _ => ⟨why, rfl⟩⟩
  | ok i =>
    obtain ⟨hwf, rfl⟩ := decode_ok_iff.1 hd
    simp [illegalWord_encode_iff, hwf]

theorem step_present_of_error {why : Illegal} (h : decode w = .error why) (s : State) :
    step (s.present w) = .refused (.illegalWord why) := by
  simp [step, State.takeInput, h]

/-! ### The statements about request words -/

/-- Settles O1: a word decodes to an operation exactly when it is the encoding of it, well-formed
(`decode_ok_iff`), and the encoding is the fields shifted into place. -/
theorem decodeInvertsEncode : Obligations.DecodeInvertsEncode := by
  refine ⟨fun i => decode_encode, fun w i => decode_ok_iff.1, fun v w i hv hw => ?_, encode_eq_shift_or, by decide⟩
  obtain ⟨-, rfl⟩ := decode_ok_iff.1 hv
  obtain ⟨-, rfl⟩ := decode_ok_iff.1 hw
  rfl

/-- Settles O2: the decoder's errors are the illegal words (`decode_error_iff`), and a step refuses what does not
decode. -/
theorem illegalWordsAreRefused : Obligations.IllegalWordsAreRefused := by
  refine ⟨fun w => decode_error_iff, fun w s h => ?_⟩
  obtain ⟨why, hd⟩ := decode_error_iff.2 h
  exact ⟨why, step_present_of_error hd s⟩

end Sys2Proof.Machine

/-! The answers of the operations (30_encoding.md R49) and of the pseudo-instruction `CRC8` (R53). -/

namespace Sys2Proof.Machine

variable {s t : State} {i : Instr}

/-! ### The pseudo-instruction `CRC8` -/

/-- `CRCB` of each byte, then `CRCRD`: the accumulator runs on over the bytes, and the last answer is its value. -/
theorem runOps_crcbs_crcrd (bs : List Byte) (s : State) :
    ∃ t, runOps (bs.map Instr.crcb ++ [.crcrd]) s = .next t ∧ t.crc = bs.foldl crcStep s.crc ∧
      t.responses.head? = some ⟨true, zextByte (bs.foldl crcStep s.crc)⟩ := by
  induction bs generalizing s with
  | nil => exact ⟨_, rfl, rfl, rfl⟩
  | cons b bs ih =>
    obtain ⟨t, hrun, hcrc, hlast⟩ := ih (State.answer { s with crc := crcStep s.crc b } true 0)
    exact ⟨t, runOps_cons_next.2 ⟨_, rfl, hrun⟩, hcrc, hlast⟩

/-- Settles O16: after `CRCINIT` the accumulator starts at 0xFF, from where `crc8` folds (`runOps_crcbs_crcrd`). -/
theorem crc8PseudoInstructionAnswersCrc8 : Obligations.Crc8PseudoInstructionAnswersCrc8 := by
  intro bs s
  obtain ⟨t, hrun, hcrc, hlast⟩ := runOps_crcbs_crcrd bs (State.answer { s with crc := Config.crcInit } true 0)
  exact ⟨t, runOps_cons_next.2 ⟨_, rfl, hrun⟩, hcrc, hlast⟩

/-! ### The response of each operation -/

/-- The `data` that 30_encoding.md R49 gives an operation from its state before and, for `WCHK`, the flag it leaves;
0 for every other operation and for every error. -/
def tabledData (s t : State) : Instr → Word
  | .rdst => zextHalf s.st
  | .crcrd => zextByte s.crc
  | .rdtx k => zextByte (s.txAt k.toNat)
  | .rdrx j => zextByte (s.rxAt j.toNat)
  | .wchk _ => zextFlag t.wok
  | .rdw k => zextHalf (s.wReg k)
  | .rdpid => s.pid
  | _ => 0

/-- Every operation answers once, with the `data` of the rule, and with `ok = 0` exactly when it is a session-step
operation that has raised its error (60_exceptions.md R91). -/
theorem exec_answers : ∀ (i : Instr) (s t : State), exec i s = .next t →
    ∃ ok, t.responses = ⟨ok, tabledData s t i⟩ :: s.responses ∧
      (ok = false ↔ sessionStep i = true ∧ t.err = raisableError i) :=
  exec_next_cases
    (h0 := fun _ => ⟨true, rfl, by simp [sessionStep]⟩)
    (h1 := fun _ => ⟨true, rfl, by simp [sessionStep]⟩)
    (h2 := fun _ _ => ⟨true, rfl, by simp [sessionStep]⟩)
    (h3 := fun _ => ⟨true, rfl, by simp [sessionStep]⟩)
    (h4 := fun _ _ => ⟨true, rfl, by simp [sessionStep]⟩)
    (h5 := fun _ _ _ => ⟨true, rfl, by simp [sessionStep]⟩)
    (h6 := fun _ a _ _ _ => by
      cases a with
      | ok b => exact ⟨true, rfl, by simp [State.endTransfer, raisableError]⟩
      | fail => exact ⟨false, rfl, by simp [State.endTransfer, sessionStep, raisableError]⟩)
    (h7 := fun _ _ _ _ => ⟨true, rfl, by simp [sessionStep]⟩)
    (h8 := fun _ _ _ _ => ⟨true, rfl, by simp [sessionStep]⟩)
    (h9 := fun _ _ _ => ⟨true, rfl, by simp [raisableError]⟩)
    (h9' := fun _ _ _ => ⟨false, rfl, by simp [sessionStep, raisableError]⟩)
    (hA := fun _ _ _ => ⟨true, rfl, by simp [sessionStep]⟩)
    (hB := fun _ _ => ⟨true, rfl, by simp [sessionStep]⟩)
    (hC := fun _ _ _ => ⟨true, rfl, by simp [raisableError]⟩)
    (hC' := fun _ _ _ => ⟨false, rfl, by simp [sessionStep, raisableError]⟩)
    (hD := fun _ a _ => by
      cases a with
      | acquired => exact ⟨true, rfl, by simp [State.endAcquire, raisableError]⟩
      | failed => exact ⟨false, rfl, by simp [State.endAcquire, sessionStep, raisableError]⟩)
    (hE := fun _ => ⟨true, rfl, by simp [sessionStep]⟩)

theorem sessionStep_iff_mem : sessionStep i = true ↔ i ∈ [.sopen, .xfer, .parse, .idcmp] := by
  cases i <;> simp [sessionStep]

/-- A session-step operation carries no data, whether it raises its error or not. -/
theorem tabledData_of_sessionStep (h : sessionStep i = true) : tabledData s t i = 0 := by
  cases i with
  | sopen | xfer | parse | idcmp => rfl
  | _ => cases h

theorem zextFlag_eq_ite (f : Bool) : zextFlag f = if f then 1 else 0 := by
  cases f <;> rfl

/-- Settles O38: `exec_answers` gives the response, and each clause reads off the data tabled for its operation. -/
theorem everyOperationAnswersAsTabled : Obligations.EveryOperationAnswersAsTabled := by
  intro i s t h
  obtain ⟨ok, hlog, hok⟩ := exec_answers i s t h
  refine ⟨ok, tabledData s t i, hlog, hok.trans (and_congr_left' sessionStep_iff_mem),
    fun hfail => tabledData_of_sessionStep (hok.1 hfail).1, ?_, ?_, ?_, ?_, ?_, ?_, ?_, ?_, ?_, ?_⟩
  · rintro rfl; rfl
  · rintro rfl; rfl
  · rintro k rfl; rfl
  · rintro j rfl; rfl
  · rintro k rfl; rfl
  · rintro rfl; rfl
  · rintro k rfl; exact zextFlag_eq_ite t.wok
  · simp only [List.mem_cons, List.not_mem_nil, or_false]
    rintro (rfl | rfl | rfl | rfl | rfl | rfl) <;> rfl
  · rintro b rfl; rfl
  · rintro c rfl; rfl

end Sys2Proof.Machine

/-! The CRC unit (40_crc8.md R57 to R66): the byte step, the three operations, and that the accumulator and the rest of
the core do not disturb each other. -/

namespace Sys2Proof.Machine

variable {s t : State} {i : Instr}

/-! ### The byte step -/

/-- The bit that a left shift drops is the highest one. -/
theorem crcShift_eq_ite_msb (a : Byte) : crcShift a = if a.msb = true then (a <<< 1) ^^^ 0x31 else a <<< 1 := by
  rw [BitVec.msb_eq_getLsbD_last]
  rfl

theorem crcShifts_eq_iterate (n : Nat) : crcShifts n = crcShift^[n] := by
  induction n with
  | zero => rfl
  | succ n ih => rw [Function.iterate_succ, ← ih]; rfl

/-- The byte step depends on the XOR of the accumulator and the byte alone (40_crc8.md R62 item 1). -/
theorem crcStep_eq_crcStep_zero (c b : Byte) : crcStep c b = crcStep 0 (c ^^^ b) := by
  simp [crcStep]

/-- The byte 0 acts on an accumulator as the accumulator does, as a byte, on 0. -/
theorem crcStep_zero_right (c : Byte) : crcStep c 0 = crcStep 0 c :=
  (crcStep_eq_crcStep_zero c 0).trans (congrArg _ BitVec.xor_zero)

theorem crcStep_self (c : Byte) : crcStep c c = 0 := by
  rw [crcStep_eq_crcStep_zero, BitVec.xor_self]
  rfl

/-- The byte 0 has exactly two fixed points, found among the 256 accumulators (40_crc8.md R64). -/
theorem crcStep_zero_eq_self_iff : ∀ c : Byte, crcStep c 0 = c ↔ c = 0x00 ∨ c = 0xEF := by decide

/-- Settles O7: `crcShifts` is the iteration of `crcShift`, which tests the highest bit, and `crc8` is a left fold. -/
theorem crcIsTheFoldOfEightShifts : Obligations.CrcIsTheFoldOfEightShifts := by
  refine ⟨fun c b => ?_, crc8_nil, crc8_concat⟩
  rw [crcStep, crcShifts_eq_iterate, funext crcShift_eq_ite_msb]
  rfl

/-! ### The three operations -/

/-- An encoding is the `match` of the operation's row with the operand in the low bits (30_encoding.md R55). -/
theorem encode_eq_tableMatch_or {n : Nat} {x : BitVec n} (hn : n ≤ 16) (hoperand : i.operand = x.setWidth 16) :
    encode i = i.tableMatch ||| x.setWidth 24 := by
  have hmatch : i.selector.setWidth 24 <<< 20 = i.tableMatch := by
    cases i <;> simp [Instr.selector, Instr.tableMatch]
  rw [encode_eq_shift_or, hmatch, hoperand, BitVec.setWidth_setWidth (by omega)]

/-- Settles O12: `execCrcinit` writes `CRC` and the response, and no other field. -/
theorem crcinitStartsANewChecksum : Obligations.CrcinitStartsANewChecksum :=
  ⟨by decide, fun _ => rfl⟩

/-- Settles O13: the effect is `execCrcb` as it stands, and the corner cases are laws of the byte step. -/
theorem crcbFeedsOneByte : Obligations.CrcbFeedsOneByte :=
  ⟨fun _ => encode_eq_tableMatch_or (by omega) rfl, fun _ _ => rfl, crcStep_zero_right, crcStep_zero_eq_self_iff,
    crcStep_self, by decide⟩

/-- Zero extension leaves bits 31:8 of a response's data at 0 (30_encoding.md R49). -/
theorem extractLsb'_zextByte (b : Byte) : (zextByte b).extractLsb' 8 24 = 0 := by
  rw [zextByte, BitVec.setWidth_eq_append (by omega)]
  exact BitVec.extractLsb'_append_eq_left

/-- Settles O14: `execCrcrd` writes the response and no other field, and its data is a zero-extended byte. -/
theorem crcrdAnswersTheAccumulator : Obligations.CrcrdAnswersTheAccumulator :=
  ⟨by decide, fun _ => rfl, extractLsb'_zextByte⟩

/-! ### The accumulator and the rest of the core -/

@[simp] theorem mapNext_require (f : State → State) (c : Bool) (r : Refusal) (k : Host.Outcome State Fault Refusal) :
    mapNext f (require c r k) = require c r (mapNext f k) := by
  cases c <;> rfl

@[simp] theorem mapNext_checkAddr (f : State → State) (sp : Space) (a n : Nat) (k : Host.Outcome State Fault Refusal) :
    mapNext f (checkAddr sp a n k) = checkAddr sp a n (mapNext f k) := by
  unfold checkAddr
  split <;> rfl

/-- No operation outside the CRC unit looks at the accumulator or writes it: preconditions, addresses and the transport's
answer are read from other fields, and so is everything that is written. -/
theorem exec_with_crc (hinit : i ≠ .crcinit) (hread : i ≠ .crcrd) (hfeed : ∀ b, i ≠ .crcb b) (s : State) (c : Byte) :
    exec i { s with crc := c } = mapNext (fun t => { t with crc := c }) (exec i s) := by
  cases i with
  | crcinit => exact absurd rfl hinit
  | crcrd => exact absurd rfl hread
  | crcb b => exact absurd rfl (hfeed b)
  | rdst | frame x | sclose => rfl
  | rdtx k => simp only [exec, execRdtx, mapNext_require, mapNext_checkAddr]; rfl
  | rdrx j => simp only [exec, execRdrx, mapNext_require, mapNext_checkAddr]; rfl
  | wchk k => simp only [exec, execWchk, mapNext_require, mapNext_checkAddr]; rfl
  | rdw k => simp only [exec, execRdw, mapNext_require]; rfl
  | rdpid => simp only [exec, execRdpid, mapNext_require]; rfl
  | parse =>
    have hvalid : ({ s with crc := c } : State).bothWordsValid = s.bothWordsValid := rfl
    simp only [exec, execParse, mapNext_require, hvalid]
    cases s.bothWordsValid <;> rfl
  | idcmp =>
    have hmatches : ({ s with crc := c } : State).identityMatches = s.identityMatches := rfl
    simp only [exec, execIdcmp, mapNext_require, hmatches]
    cases s.identityMatches <;> rfl
  | xfer =>
    have hanswer : ({ s with crc := c } : State).transferAnswer = s.transferAnswer := rfl
    simp only [exec, execXfer, mapNext_require, hanswer]
    cases s.transferAnswer with
    | none => rfl
    | some a => cases a <;> rfl
  | sopen =>
    have hanswer : ({ s with crc := c } : State).acquireAnswer = s.acquireAnswer := rfl
    simp only [exec, execSopen, hanswer]
    cases s.acquireAnswer with
    | none => rfl
    | some a => cases a <;> rfl

/-- The frame is a case of the noninterference: with `c` the accumulator itself, `exec_with_crc` says that the
operation ends with the accumulator it began with. -/
theorem exec_keeps_crc (hinit : i ≠ .crcinit) (hread : i ≠ .crcrd) (hfeed : ∀ b, i ≠ .crcb b)
    (h : exec i s = .next t) : t.crc = s.crc := by
  have hmap := exec_with_crc hinit hread hfeed s s.crc
  simp only [h, mapNext, Host.Outcome.next.injEq] at hmap
  rw [hmap]

/-- An operation other than `CRCINIT` takes the accumulator over the byte that it feeds, if it feeds one. -/
theorem exec_folds_fedBytes (hinit : i ≠ .crcinit) (h : exec i s = .next t) :
    t.crc = (fedBytes [i]).foldl crcStep s.crc := by
  cases i with
  | crcinit => exact absurd rfl hinit
  | crcb b => cases h; rfl
  | crcrd => cases h; rfl
  | _ => exact exec_keeps_crc (by nofun) (by nofun) (by nofun) h

/-- A sequence without `CRCINIT` takes the accumulator over the bytes that it feeds, in order. -/
theorem runOps_folds_fedBytes {ops : List Instr} (hinit : Instr.crcinit ∉ ops) (h : runOps ops s = .next t) :
    t.crc = (fedBytes ops).foldl crcStep s.crc := by
  induction ops generalizing s with
  | nil => cases h; rfl
  | cons i is ih =>
    obtain ⟨hi, his⟩ := List.ne_and_not_mem_of_not_mem_cons hinit
    obtain ⟨u, hfirst, hrest⟩ := runOps_cons_next.1 h
    rw [ih his hrest, exec_folds_fedBytes (Ne.symm hi) hfirst, fedBytes_cons i is, List.foldl_append]

/-- Settles O15: after `CRCINIT` the sequence folds the fed bytes from 0xFF, which is their `crc8`
(`runOps_folds_fedBytes`); and changing `CRC` before any other operation changes only `CRC` after it
(`exec_with_crc`). -/
theorem streamingCrcIsUndisturbed : Obligations.StreamingCrcIsUndisturbed := by
  refine ⟨fun ops s t hinit hrun => ?_, fun i s c hinit hread hfeed => exec_with_crc hinit hread hfeed s c⟩
  obtain ⟨u, hfirst, hrest⟩ := runOps_cons_next.1 hrun
  cases hfirst
  have hcrc : t.crc = crc8 (fedBytes ops) := runOps_folds_fedBytes hinit hrest
  rw [← hcrc]
  exact ⟨rfl, rfl⟩

end Sys2Proof.Machine

/-! The framer: `FRAME` fills the frame buffer (41_framer.md R67), and `RDTX` reads it (R69). -/

namespace Sys2Proof.Machine

variable {s : State}

/-- All that `FRAME c` writes: the frame buffer, its valid flag and the response. -/
theorem exec_frame (c : Half) (s : State) : exec (.frame c) s =
    .next { s with tx := Memory.fill [hiByte c, loByte c], txv := true, responses := ⟨true, 0⟩ :: s.responses } := rfl

/-- Settles O17: `FRAME` fills the buffer and writes no field but those of R67 (`exec_frame`), and the buffer reads
back high byte first (`txAt_of_frame`). -/
theorem frameStoresHighByteFirst : Obligations.FrameStoresHighByteFirst := by
  refine ⟨fun c => encode_eq_tableMatch_or (by omega) (BitVec.setWidth_eq c).symm,
    fun c s => ⟨_, exec_frame c s, ?_⟩⟩
  obtain ⟨hhi, hlo⟩ := txAt_of_frame (State.loadFrame_tx (s := s) c)
  exact ⟨hhi, hlo, rfl⟩

/-- Without a frame `RDTX` is refused, whatever its operand. -/
theorem exec_rdtx_of_no_frame (htxv : s.txv = false) (i : BitVec 1) : exec (.rdtx i) s = .refused .noFrame :=
  require_of_not htxv _ _

/-- Settles O18: with a frame `RDTX` answers the byte (`exec_rdtx_of_txAt`), for both operands are addresses of the
buffer; without one it is refused (`exec_rdtx_of_no_frame`). -/
theorem rdtxAnswersAFrameByte : Obligations.RdtxAnswersAFrameByte :=
  ⟨fun _ => encode_eq_tableMatch_or (by omega) rfl,
    fun _ _ htxv => exec_rdtx_of_txAt htxv rfl,
    fun i _ htxv => ⟨.noFrame, exec_rdtx_of_no_frame htxv i⟩⟩

end Sys2Proof.Machine

/-! The parser: the transaction (42_parser.md R71), the reads and the test of the response (R72, R74), and decoding
(R75, R76, R79, R80). -/

namespace Sys2Proof.Machine

variable {s t : State}

/-! ### The transaction -/

/-- A buffer that a successful transaction has filled holds the bytes of the response (42_parser.md R71). -/
theorem rxAt_of_response {b : Vector Byte 18} (h : s.rx = Memory.fill b.toList) {j : Nat} (hj : j < 18) :
    s.rxAt j = b[j] := by
  rw [State.rxAt, h, Memory.byteAt_fill, List.getD_eq_getElem _ _ (by simpa using hj), Vector.getElem_toList]

/-- In its precondition `XFER` ends as the transport answers. -/
theorem exec_xfer_of_answer {a : TransferAnswer} (hss : s.ss ≠ .uninit) (htxv : s.txv = true)
    (ha : s.transferAnswer = some a) : exec .xfer s = .next (s.beginTransfer.askTransfer.endTransfer a) :=
  execXfer_next.2 ⟨hss, htxv, a, ha, rfl⟩

/-- Without a handle `XFER` is refused for that, and with a handle but no frame for the frame. -/
theorem exec_xfer_refused (h : s.ss = .uninit ∨ s.txv = false) : ∃ r, exec .xfer s = .refused r := by
  cases hhandle : s.hasHandle with
  | false => exact ⟨.noHandle, require_of_not hhandle _ _⟩
  | true =>
    have htxv : s.txv = false := h.resolve_left (hasHandle_iff.1 hhandle)
    exact ⟨.noFrame, (require_of hhandle _ _).trans (require_of_not htxv _ _)⟩

/-- Settles O20: `XFER` ends as the transport answers (`exec_xfer_of_answer`), and a response that is loaded reads back
byte by byte (`rxAt_of_response`). -/
theorem xferLoadsOrLosesTheResponse : Obligations.XferLoadsOrLosesTheResponse :=
  ⟨by decide,
    fun _ _ hss htxv ha => ⟨_, exec_xfer_of_answer hss htxv ha, fun _ => rxAt_of_response rfl, rfl⟩,
    fun _ hss htxv ha => ⟨_, exec_xfer_of_answer hss htxv ha, rfl⟩,
    fun _ => exec_xfer_refused⟩

/-! ### The response, byte by byte and word by word -/

/-- The encoding of an operation whose operand is outside its range does not decode (30_encoding.md R50). -/
theorem decode_encode_error {i : Instr} (h : i.wellFormed = false) : ∃ why, decode (encode i) = .error why :=
  decode_error_iff.2 (illegalWord_encode_iff.2 h)

theorem encode_rdrx (j : BitVec 5) : encode (.rdrx j) = 0x700000 ||| j.setWidth 24 :=
  encode_eq_tableMatch_or (by omega) rfl

theorem encode_wchk (k : BitVec 3) : encode (.wchk k) = 0x800000 ||| k.setWidth 24 :=
  encode_eq_tableMatch_or (by omega) rfl

/-- Settles O21: in its range `RDRX` answers the byte (`exec_rdrx_of_rxAt`), and outside it the encoding is no legal
word (`decode_encode_error`). -/
theorem rdrxAnswersAResponseByte : Obligations.RdrxAnswersAResponseByte := by
  refine ⟨encode_rdrx, fun j s hj hrxv => exec_rdrx_of_rxAt hrxv hj rfl,
    fun j s hrxv => ⟨.noResponse, require_of_not hrxv _ _⟩, fun j hj => ?_⟩
  have hrange : (Instr.rdrx j).wellFormed = false := decide_eq_false (by omega)
  exact encode_rdrx j ▸ decode_encode_error hrange

/-- Settles O22: the validity that `WCHK` writes and answers is the CRC test of the word's three bytes
(`execWchk_next`), and outside its range the encoding is no legal word (`decode_encode_error`). -/
theorem wchkTestsOneWord : Obligations.WchkTestsOneWord := by
  refine ⟨encode_wchk, fun k s hk hrxv => execWchk_next.2 ⟨hrxv, hk, ?_⟩,
    fun k s hrxv => ⟨.noResponse, require_of_not hrxv _ _⟩, fun k hk => ?_⟩
  · rw [zextFlag_eq_ite]
    rfl
  · have hrange : (Instr.wchk k).wellFormed = false := decide_eq_false (by omega)
    exact encode_wchk k ▸ decode_encode_error hrange

/-! ### Decoding -/

theorem bothWordsValid_eq_false_iff : s.bothWordsValid = false ↔
    crc8 [s.rxAt 0, s.rxAt 1] ≠ s.rxAt 2 ∨ crc8 [s.rxAt 3, s.rxAt 4] ≠ s.rxAt 5 := by
  rw [← Bool.not_eq_true, bothWordsValid_iff, not_and_or]

/-- Settles O23: the two ends of `PARSE` (`execParse_next`), with its condition read off the six bytes. -/
theorem parseDecodesOnlyValidWords : Obligations.ParseDecodesOnlyValidWords :=
  ⟨by decide,
    fun _ hrxv h0 h1 => execParse_next.2 ⟨hrxv, .inl ⟨bothWordsValid_iff.2 ⟨h0, h1⟩, rfl⟩⟩,
    fun _ hrxv h => execParse_next.2 ⟨hrxv, .inr ⟨bothWordsValid_eq_false_iff.2 h, rfl⟩⟩,
    fun _ hrxv => ⟨.noResponse, require_of_not hrxv _ _⟩⟩

/-- Four bytes side by side, first byte highest, are the bytes zero-extended and shifted into place
(42_parser.md R76). -/
theorem joinHalves_joinBytes (b0 b1 b2 b3 : Byte) :
    joinHalves (joinBytes b0 b1) (joinBytes b2 b3) =
      (b0.setWidth 32 <<< 24) ||| (b1.setWidth 32 <<< 16) ||| (b2.setWidth 32 <<< 8) ||| b3.setWidth 32 := by
  rw [← BitVec.setWidth_eq (joinHalves _ _)]
  simp only [joinHalves, joinBytes, BitVec.setWidth_append_eq_shiftLeft_setWidth_or, BitVec.shiftLeft_or_distrib,
    ← BitVec.shiftLeft_add, BitVec.or_assoc]

/-- `DV = 1` after a `PARSE` tells that it decoded: `W` holds the payloads of words 0 and 1. -/
theorem execParse_decoded (h : execParse s = .next t) (hdv : t.dv = true) :
    t.w0 = joinBytes (s.rxAt 0) (s.rxAt 1) ∧ t.w1 = joinBytes (s.rxAt 3) (s.rxAt 4) := by
  obtain ⟨-, ⟨-, rfl⟩ | ⟨-, rfl⟩⟩ := execParse_next.1 h
  · exact ⟨rfl, rfl⟩
  · cases hdv

/-- Settles O24: the identifier joins the payloads that `PARSE` decoded (`execParse_decoded`), and joining is shifting
into place (`joinHalves_joinBytes`). -/
theorem pidIsAssembledAroundTheCrcBytes : Obligations.PidIsAssembledAroundTheCrcBytes := by
  intro s t h hdv
  obtain ⟨hw0, hw1⟩ := execParse_decoded h hdv
  rw [State.pid, hw0, hw1, joinHalves_joinBytes]

/-! ### The decoded words -/

/-- Settles O26: with `DV = 1` `RDW` answers the word its operand names (`execRdw_next`). -/
theorem rdwAnswersADecodedWord : Obligations.RdwAnswersADecodedWord :=
  ⟨fun _ => encode_eq_tableMatch_or (by omega) rfl,
    fun _ _ hdv => execRdw_next.2 ⟨hdv, rfl⟩,
    fun _ _ hdv => ⟨.notDecoded, require_of_not hdv _ _⟩⟩

/-- Settles O27: with `DV = 1` `RDPID` answers the identifier (`execRdpid_next`), which is `W[0]` joined to `W[1]`. -/
theorem rdpidAnswersTheIdentifier : Obligations.RdpidAnswersTheIdentifier :=
  ⟨by decide,
    fun _ hdv => execRdpid_next.2 ⟨hdv, rfl⟩,
    fun _ hdv => ⟨.notDecoded, require_of_not hdv _ _⟩⟩

end Sys2Proof.Machine

/-! The session: the four operations of 43_session.md section 1, the lifecycle (R85), and the open sequence (R86, R87). -/

namespace Sys2Proof.Machine

variable {s t : State} {i : Instr}

/-! ### The operations -/

/-- When the transport answers, `SOPEN` ends as it answers. -/
theorem exec_sopen_of_answer {a : AcquireAnswer} (ha : s.acquireAnswer = some a) :
    exec .sopen s = .next (s.discardSession.askAcquire.endAcquire a) :=
  execSopen_next.2 ⟨a, ha, rfl⟩

theorem exec_parse_of_no_response (hrxv : s.rxv = false) : exec .parse s = .refused .noResponse :=
  require_of_not hrxv _ _

theorem exec_idcmp_of_not_decoded (hdv : s.dv = false) : exec .idcmp s = .refused .notDecoded :=
  require_of_not hdv _ _

theorem exec_parse_of_valid (hrxv : s.rxv = true) (hvalid : s.bothWordsValid = true) :
    exec .parse s = .next s.decodeWords.succeed :=
  execParse_next.2 ⟨hrxv, .inl ⟨hvalid, rfl⟩⟩

theorem exec_parse_of_invalid (hrxv : s.rxv = true) (hvalid : s.bothWordsValid = false) :
    exec .parse s = .next (State.raise { s with dv := false, ss := .opened } .integrityError) :=
  execParse_next.2 ⟨hrxv, .inr ⟨hvalid, rfl⟩⟩

theorem identityMatches_eq_false_iff : s.identityMatches = false ↔ s.pid ≠ s.params.expectedProductId := by
  rw [← Bool.not_eq_true, identityMatches_iff]

theorem exec_idcmp_of_match (hdv : s.dv = true) (hpid : s.pid = s.params.expectedProductId) :
    exec .idcmp s = .next (State.succeed { s with ss := .ready }) :=
  execIdcmp_next.2 ⟨hdv, .inl ⟨identityMatches_iff.2 hpid, rfl⟩⟩

theorem exec_idcmp_of_mismatch (hdv : s.dv = true) (hpid : s.pid ≠ s.params.expectedProductId) :
    exec .idcmp s = .next (State.raise { s with ss := .opened } .identityMismatch) :=
  execIdcmp_next.2 ⟨hdv, .inr ⟨identityMatches_eq_false_iff.2 hpid, rfl⟩⟩

/-- Settles O29: `SOPEN` discards the session and ends as the transport answers (`exec_sopen_of_answer`). -/
theorem sopenDiscardsThenAcquires : Obligations.SopenDiscardsThenAcquires :=
  ⟨by decide, fun _ ha => ⟨_, exec_sopen_of_answer ha, rfl⟩, fun _ ha => ⟨_, exec_sopen_of_answer ha, rfl⟩⟩

/-- Every field that `ST` shows is at its reset value after a discard that succeeds (43_session.md R82). -/
theorem discardSession_succeed_st (s : State) : s.discardSession.succeed.st = 0 := by
  simp [State.st, ErrorCode.code, SessionState.code]

/-- Settles O30: `SCLOSE` discards the session and succeeds, which clears `ST` (`discardSession_succeed_st`). -/
theorem scloseClearsTheStatus : Obligations.ScloseClearsTheStatus :=
  ⟨by decide, fun s => ⟨_, rfl, discardSession_succeed_st s, rfl⟩⟩

/-- Settles O31: `IDCMP` with an identifier that matches, with one that does not, and without one. -/
theorem idcmpComparesAllBits : Obligations.IdcmpComparesAllBits :=
  ⟨by decide, fun _ => exec_idcmp_of_match, fun _ => exec_idcmp_of_mismatch,
    fun _ hdv => ⟨.notDecoded, exec_idcmp_of_not_decoded hdv⟩⟩

/-! ### The status word -/

/-- The fields of `ST` side by side are the fields shifted into place (43_session.md R84). -/
theorem zextHalf_st (s : State) : zextHalf s.st =
    (s.err.code.setWidth 32 <<< 8) ||| (zextFlag s.wok <<< 5) ||| (zextFlag s.dv <<< 4) |||
      (zextFlag s.rxv <<< 3) ||| (zextFlag s.txv <<< 2) ||| s.ss.code.setWidth 32 := by
  simp only [zextHalf, State.st, zextFlag, BitVec.setWidth_append_eq_shiftLeft_setWidth_or,
    BitVec.shiftLeft_or_distrib, ← BitVec.shiftLeft_add]
  simp

/-- Bits 31:11 of a status word whose five highest bits are 0. -/
theorem extractLsb'_zextHalf_append (x : BitVec 11) : (zextHalf ((0 : BitVec 5) ++ x)).extractLsb' 11 21 = 0 := by
  have hx : (0 : BitVec 5) ++ x = x.setWidth 16 := (BitVec.setWidth_eq_append (by decide)).symm
  rw [zextHalf, hx, BitVec.setWidth_setWidth (by decide), BitVec.setWidth_eq_append (by decide)]
  exact BitVec.extractLsb'_append_eq_left

/-- The reserved bits above `ERR` (10_state.md R20). -/
theorem extractLsb'_zextHalf_st_high (s : State) : (zextHalf s.st).extractLsb' 11 21 = 0 := by
  simp only [State.st, BitVec.append_assoc, BitVec.cast_eq]
  exact extractLsb'_zextHalf_append _

/-- The reserved bits between `ERR` and the flags (10_state.md R20). -/
theorem extractLsb'_zextHalf_st_mid (s : State) : (zextHalf s.st).extractLsb' 6 2 = 0 := by
  simp (disch := omega) only [zextHalf, State.st, BitVec.extractLsb'_setWidth_of_le,
    BitVec.extractLsb'_append_eq_of_le, Nat.reduceSub]
  exact BitVec.extractLsb'_append_eq_right

/-- A flag shifted into place as a word, and as the number 1 or 0. -/
theorem zextFlag_shiftLeft (f : Bool) (n : Nat) : zextFlag f <<< n = (((if f then 1 else 0) <<< n : Nat) : Word) := by
  apply BitVec.eq_of_toNat_eq
  cases f <;> simp [zextFlag]

/-- Settles O32: `RDST` answers `ST`, which is the rule's formula (`zextHalf_st`) with its reserved bits 0. -/
theorem rdstAnswersTheStatusWord : Obligations.RdstAnswersTheStatusWord := by
  refine ⟨by decide, rfl, rfl, rfl, rfl, rfl, rfl, rfl, rfl, fun s => ⟨zextHalf s.st, rfl, ?_,
    extractLsb'_zextHalf_st_high s, extractLsb'_zextHalf_st_mid s, rfl⟩⟩
  rw [zextHalf_st]
  simp only [zextFlag_shiftLeft]

/-! ### The lifecycle -/

/-- `SS` after an operation that is not refused, by the table of 43_session.md R85. Where `SOPEN` gets no answer it
does not complete. -/
def sessionAfter (s : State) : Instr → SessionState
  | .sopen => if s.acquireAnswer = some .acquired then .opened else .uninit
  | .sclose => .uninit
  | .xfer => .opened
  | .parse => if s.bothWordsValid then s.ss else .opened
  | .idcmp => if s.identityMatches then .ready else .opened
  | _ => s.ss

/-- Every operation leaves `SS` as the table says, and one that fails does not leave `READY`. -/
theorem exec_session : ∀ (i : Instr) (s t : State), exec i s = .next t →
    t.ss = sessionAfter s i ∧ (t.lastOk = false → t.ss ≠ .ready) :=
  exec_next_cases (P := fun i s t => t.ss = sessionAfter s i ∧ (t.lastOk = false → t.ss ≠ .ready))
    (h0 := fun _ => ⟨rfl, nofun⟩)
    (h1 := fun _ => ⟨rfl, nofun⟩)
    (h2 := fun _ _ => ⟨rfl, nofun⟩)
    (h3 := fun _ => ⟨rfl, nofun⟩)
    (h4 := fun _ _ => ⟨rfl, nofun⟩)
    (h5 := fun _ _ _ => ⟨rfl, nofun⟩)
    (h6 := fun _ a _ _ _ => by cases a <;> exact ⟨rfl, nofun⟩)
    (h7 := fun _ _ _ _ => ⟨rfl, nofun⟩)
    (h8 := fun _ _ _ _ => ⟨rfl, nofun⟩)
    (h9 := fun _ _ hvalid => ⟨(if_pos hvalid).symm, nofun⟩)
    (h9' := fun _ _ hvalid => ⟨(if_neg (Bool.eq_false_iff.1 hvalid)).symm, nofun⟩)
    (hA := fun _ _ _ => ⟨rfl, nofun⟩)
    (hB := fun _ _ => ⟨rfl, nofun⟩)
    (hC := fun _ _ hmatch => ⟨(if_pos hmatch).symm, nofun⟩)
    (hC' := fun _ _ hmatch => ⟨(if_neg (Bool.eq_false_iff.1 hmatch)).symm, nofun⟩)
    (hD := fun _ a ha => by
      cases a with
      | acquired => exact ⟨(if_pos ha).symm, nofun⟩
      | failed => exact ⟨(if_neg (by simp [ha])).symm, nofun⟩)
    (hE := fun _ => ⟨rfl, nofun⟩)

/-- The only way into `READY` is an `IDCMP` that matches (43_session.md R85). -/
theorem ready_of_sessionAfter (h : sessionAfter s i = .ready) :
    s.ss = .ready ∨ (i = .idcmp ∧ s.identityMatches = true) := by
  cases i with
  | sopen =>
    simp only [sessionAfter] at h
    split at h <;> cases h
  | parse =>
    simp only [sessionAfter] at h
    split at h
    · exact .inl h
    · cases h
  | idcmp =>
    simp only [sessionAfter] at h
    split at h
    · next hmatch => exact .inr ⟨rfl, hmatch⟩
    · cases h
  | sclose | xfer => cases h
  | _ => exact .inl h

theorem sessionAfter_of_not_mem (h : i ∉ [.sopen, .sclose, .xfer, .parse, .idcmp]) : sessionAfter s i = s.ss := by
  cases i with
  | sopen | sclose | xfer | parse | idcmp => simp at h
  | _ => rfl

theorem lastOk_of_head?_ok (h : s.responses.head?.map Response.ok = some false) : s.lastOk = false := by
  unfold State.lastOk
  cases hlog : s.responses with
  | nil => simp [hlog] at h
  | cons r rs => simpa [hlog] using h

/-- Without a handle no response is held (10_state.md R21 item 5). -/
theorem Inv.rxv_of_uninit (h : Inv s) (hss : s.ss = .uninit) : s.rxv = false :=
  Bool.eq_false_iff.2 fun hrxv => h.rxv_handle hrxv hss

/-- Without a response nothing is decoded (10_state.md R21 item 1). -/
theorem Inv.dv_of_no_response (h : Inv s) (hrxv : s.rxv = false) : s.dv = false :=
  Bool.eq_false_iff.2 fun hdv => Bool.false_ne_true (hrxv.symm.trans (h.dv_rxv hdv))

/-- Settles O33: the table is `sessionAfter`, which every operation follows (`exec_session`); the refused and the
impossible cells come from the relations of 10_state.md R21. -/
theorem lifecycleFollowsTheTable : Obligations.LifecycleFollowsTheTable := by
  refine ⟨fun i s t h => ?_, fun s hss => exec_xfer_refused (.inl hss), fun s hinv hss => ?_, fun s hinv hss => ?_⟩
  · obtain ⟨hafter, hfail⟩ := exec_session i s t h
    refine ⟨?_, ?_, ?_, ?_, ?_, fun hi => hafter.trans (sessionAfter_of_not_mem hi),
      fun hready => ready_of_sessionAfter (hafter.symm.trans hready), fun hok => hfail (lastOk_of_head?_ok hok)⟩
    · rintro rfl
      exact ⟨fun ha => hafter.trans (if_pos ha), fun ha => hafter.trans (if_neg (by simp [ha]))⟩
    all_goals rintro rfl; exact hafter
  · have hrxv := hinv.rxv_of_uninit hss
    exact ⟨⟨_, exec_parse_of_no_response hrxv⟩, ⟨_, exec_idcmp_of_not_decoded (hinv.dv_of_no_response hrxv)⟩⟩
  · obtain ⟨hdv, hpid⟩ := hinv.ready_verified hss
    exact ⟨bothWordsValid_iff.2 (hinv.dv_crc hdv), identityMatches_iff.2 hpid⟩

/-! ### The open sequence -/

theorem runUntilError_cons_of_ok {is : List Instr} (h : exec i s = .next t) (hok : t.lastOk = true) :
    runUntilError (i :: is) s = runUntilError is t := by
  rw [runUntilError_cons h, if_pos hok]

theorem runUntilError_cons_of_error {is : List Instr} (h : exec i s = .next t) (hok : t.lastOk = false) :
    runUntilError (i :: is) s = .next t := by
  rw [runUntilError_cons h, if_neg (Bool.eq_false_iff.1 hok)]

/-- The open sequence after its first two operations, when the transport has acquired a handle: an open session that
holds the frame (43_session.md R86). -/
def State.openFramed (s : State) : State :=
  ((s.discardSession.askAcquire.endAcquire .acquired).loadFrame s.params.cmdGetProductId).answer true 0

/-- The open sequence after its transaction, which the transport has answered with `x` (43_session.md R86). -/
def State.openTransferred (s : State) (x : TransferAnswer) : State :=
  s.openFramed.beginTransfer.askTransfer.endTransfer x

theorem openFramed_txAt (s : State) :
    s.openFramed.txAt 0 = hiByte s.params.cmdGetProductId ∧ s.openFramed.txAt 1 = loByte s.params.cmdGetProductId :=
  txAt_of_frame rfl

/-- The sequence asks the transport for a handle and then for one transaction with the frame. -/
theorem openTransferred_calls (s : State) (x : TransferAnswer) : (s.openTransferred x).calls =
    .writeThenRead [hiByte s.params.cmdGetProductId, loByte s.params.cmdGetProductId] 18 :: .acquire :: s.calls := by
  obtain ⟨hhi, hlo⟩ := openFramed_txAt s
  rw [← hhi, ← hlo]
  cases x <;> rfl

/-- What is validated is the response that the transport has given. -/
theorem openTransferred_bothWordsValid_iff (s : State) (b : Vector Byte 18) :
    (s.openTransferred (.ok b)).bothWordsValid = true ↔
      crc8 [b[0], b[1]] = b[2] ∧ crc8 [b[3], b[4]] = b[5] := by
  have hrx (j : Nat) (hj : j < 18) : (s.openTransferred (.ok b)).rxAt j = b[j] := rxAt_of_response rfl hj
  rw [bothWordsValid_iff, hrx, hrx, hrx, hrx, hrx, hrx]

/-- What is decoded is the payloads of the response that the transport has given. -/
theorem openTransferred_decodeWords_pid (s : State) (b : Vector Byte 18) :
    (s.openTransferred (.ok b)).decodeWords.pid = b[0] ++ b[1] ++ b[3] ++ b[4] := by
  have hrx (j : Nat) (hj : j < 18) : (s.openTransferred (.ok b)).rxAt j = b[j] := rxAt_of_response rfl hj
  rw [State.pid, State.decodeWords_w0, State.decodeWords_w1, hrx, hrx, hrx, hrx]
  exact BitVec.append_assoc'

/-! The verification, `PARSE` and `IDCMP`, of a response that is held, and its three ends. -/

theorem runVerification_of_invalid (hrxv : s.rxv = true) (hvalid : s.bothWordsValid = false) :
    runUntilError [.parse, .idcmp] s = .next (State.raise { s with dv := false, ss := .opened } .integrityError) :=
  runUntilError_cons_of_error (exec_parse_of_invalid hrxv hvalid) rfl

theorem runVerification_of_mismatch (hrxv : s.rxv = true) (hvalid : s.bothWordsValid = true)
    (hpid : s.decodeWords.pid ≠ s.params.expectedProductId) : runUntilError [.parse, .idcmp] s =
      .next (State.raise { s.decodeWords.succeed with ss := .opened } .identityMismatch) :=
  (runUntilError_cons_of_ok (exec_parse_of_valid hrxv hvalid) rfl).trans
    (runUntilError_cons_of_error (exec_idcmp_of_mismatch rfl hpid) rfl)

theorem runVerification_of_match (hrxv : s.rxv = true) (hvalid : s.bothWordsValid = true)
    (hpid : s.decodeWords.pid = s.params.expectedProductId) : runUntilError [.parse, .idcmp] s =
      .next (State.succeed { s.decodeWords.succeed with ss := .ready }) :=
  (runUntilError_cons_of_ok (exec_parse_of_valid hrxv hvalid) rfl).trans
    (runUntilError_cons_of_ok (exec_idcmp_of_match rfl hpid) rfl)

theorem runOpen_of_failed (ha : s.acquireAnswer = some .failed) :
    runOpen s = .next (s.discardSession.askAcquire.endAcquire .failed) :=
  runUntilError_cons_of_error (exec_sopen_of_answer ha) rfl

section
variable {x : TransferAnswer} {b : Vector Byte 18} (ha : s.acquireAnswer = some .acquired)
include ha

/-- With a handle the sequence comes to its transaction. -/
theorem runOpen_of_acquired : runOpen s = runUntilError [.xfer, .parse, .idcmp] s.openFramed :=
  (runUntilError_cons_of_ok (exec_sopen_of_answer ha) rfl).trans (runUntilError_cons_of_ok rfl rfl)

theorem runOpen_of_transfer_fail (hx : s.openFramed.transferAnswer = some .fail) :
    runOpen s = .next (s.openTransferred .fail) :=
  (runOpen_of_acquired ha).trans (runUntilError_cons_of_error (exec_xfer_of_answer nofun rfl hx) rfl)

/-- With a response the sequence comes to its validation. -/
theorem runOpen_of_transfer_ok (hx : s.openFramed.transferAnswer = some (.ok b)) :
    runOpen s = runUntilError [.parse, .idcmp] (s.openTransferred (.ok b)) :=
  (runOpen_of_acquired ha).trans (runUntilError_cons_of_ok (exec_xfer_of_answer nofun rfl hx) rfl)

end

/-- Settles O34: the sequence has five ends, one per row of the table and success; each is the state in which its lemma
(`runOpen_of_failed`, `runOpen_of_transfer_fail`, `runVerification_of_…`) says that the run stops. -/
theorem openSequenceEndsAsTheTableSays : Obligations.OpenSequenceEndsAsTheTableSays := by
  intro s a x ha hx
  cases a with
  | failed =>
    exact ⟨_, runOpen_of_failed ha, iff_of_false nofun nofun,
      fun _ => ⟨rfl, rfl, rfl, rfl, exec_xfer_refused (.inl rfl)⟩, nofun⟩
  | acquired =>
    cases x with
    | fail =>
      exact ⟨_, runOpen_of_transfer_fail ha hx, iff_of_false nofun nofun, nofun, fun _ =>
        ⟨openTransferred_calls s .fail, fun _ => ⟨rfl, rfl, rfl, rfl, _, exec_parse_of_no_response rfl⟩, nofun, nofun⟩⟩
    | ok b =>
      have hcalls := openTransferred_calls s (.ok b)
      have hvalid := openTransferred_bothWordsValid_iff s b
      have hdecoded := openTransferred_decodeWords_pid s b
      simp only [runOpen_of_transfer_ok ha hx, TransferAnswer.ok.injEq, forall_eq', reduceCtorEq, false_implies,
        true_and, forall_const]
      by_cases hcrc : crc8 [b[0], b[1]] = b[2] ∧ crc8 [b[3], b[4]] = b[5]
      · by_cases hpid : (s.openTransferred (.ok b)).decodeWords.pid = s.params.expectedProductId
        · exact ⟨_, runVerification_of_match rfl (hvalid.2 hcrc) hpid, iff_of_true rfl rfl, hcalls, absurd hcrc, fun _ _ =>
            ⟨hdecoded, rfl, absurd hpid, fun _ => ⟨rfl, rfl, rfl, rfl, rfl, openFramed_txAt s⟩⟩⟩
        · exact ⟨_, runVerification_of_mismatch rfl (hvalid.2 hcrc) hpid, iff_of_false nofun nofun, hcalls, absurd hcrc,
            fun _ _ => ⟨hdecoded, rfl, fun _ => ⟨rfl, rfl, rfl⟩, fun heq => absurd heq hpid⟩⟩
      · have hinvalid := Bool.eq_false_iff.2 (mt hvalid.1 hcrc)
        exact ⟨_, runVerification_of_invalid rfl hinvalid, iff_of_false nofun nofun, hcalls,
          fun _ => ⟨rfl, rfl, rfl, rfl, rfl, _, exec_idcmp_of_not_decoded rfl⟩, fun h0 h1 => absurd ⟨h0, h1⟩ hcrc⟩

end Sys2Proof.Machine

/-! The errors (60_exceptions.md R89 to R91): what causes one, what it leaves in `ST.ERR`, and what clears it. -/

namespace Sys2Proof.Machine

variable {s t : State} {i : Instr}

/-- What makes an operation raise its error (60_exceptions.md R90): the causes of the four session-step operations, and
no cause for any other. -/
def ErrorCause (s : State) : Instr → Prop
  | .sopen => s.acquireAnswer = some .failed
  | .xfer => s.transferAnswer = some .fail
  | .parse => s.bothWordsValid = false
  | .idcmp => s.identityMatches = false
  | _ => False

/-- An operation with a cause raises its error; a session-step operation without one clears `ST.ERR`; and of the others
only `SCLOSE` touches `ST.ERR`, which it clears. -/
theorem exec_err : ∀ (i : Instr) (s t : State), exec i s = .next t →
    (ErrorCause s i → t.err = raisableError i) ∧
    (¬ ErrorCause s i → sessionStep i = true → t.err = .noError) ∧
    (sessionStep i = false → t.err = if i = .sclose then .noError else s.err) :=
  exec_next_cases
    (h0 := fun _ => ⟨False.elim, nofun, fun _ => rfl⟩)
    (h1 := fun _ => ⟨False.elim, nofun, fun _ => rfl⟩)
    (h2 := fun _ _ => ⟨False.elim, nofun, fun _ => rfl⟩)
    (h3 := fun _ => ⟨False.elim, nofun, fun _ => rfl⟩)
    (h4 := fun _ _ => ⟨False.elim, nofun, fun _ => rfl⟩)
    (h5 := fun _ _ _ => ⟨False.elim, nofun, fun _ => rfl⟩)
    (h6 := fun _ a _ _ hanswer => by
      cases a with
      | ok b => exact ⟨fun hfail => (nomatch hanswer.symm.trans hfail), fun _ _ => rfl, nofun⟩
      | fail => exact ⟨fun _ => rfl, absurd hanswer, nofun⟩)
    (h7 := fun _ _ _ _ => ⟨False.elim, nofun, fun _ => rfl⟩)
    (h8 := fun _ _ _ _ => ⟨False.elim, nofun, fun _ => rfl⟩)
    (h9 := fun _ _ hvalid => ⟨fun hinvalid => (nomatch hvalid.symm.trans hinvalid), fun _ _ => rfl, nofun⟩)
    (h9' := fun _ _ hinvalid => ⟨fun _ => rfl, absurd hinvalid, nofun⟩)
    (hA := fun _ _ _ => ⟨False.elim, nofun, fun _ => rfl⟩)
    (hB := fun _ _ => ⟨False.elim, nofun, fun _ => rfl⟩)
    (hC := fun _ _ hmatch => ⟨fun hmismatch => (nomatch hmatch.symm.trans hmismatch), fun _ _ => rfl, nofun⟩)
    (hC' := fun _ _ hmismatch => ⟨fun _ => rfl, absurd hmismatch, nofun⟩)
    (hD := fun _ a hanswer => by
      cases a with
      | acquired => exact ⟨fun hfail => (nomatch hanswer.symm.trans hfail), fun _ _ => rfl, nofun⟩
      | failed => exact ⟨fun _ => rfl, absurd hanswer, nofun⟩)
    (hE := fun _ => ⟨False.elim, nofun, fun _ => rfl⟩)

theorem sessionStep_of_errorCause (h : ErrorCause s i) : sessionStep i = true := by
  cases i with
  | sopen | xfer | parse | idcmp => rfl
  | _ => exact h.elim

theorem raisableError_ne_noError (h : sessionStep i = true) : raisableError i ≠ .noError := by
  cases i with
  | sopen | xfer | parse | idcmp => exact nofun
  | _ => cases h

/-- The causes as 60_exceptions.md R90 lists them, with what `PARSE` and `IDCMP` test written out. -/
theorem errorCause_iff : ErrorCause s i ↔
    (i = .sopen ∧ s.acquireAnswer = some .failed) ∨
    (i = .xfer ∧ s.transferAnswer = some .fail) ∨
    (i = .parse ∧ (crc8 [s.rxAt 0, s.rxAt 1] ≠ s.rxAt 2 ∨ crc8 [s.rxAt 3, s.rxAt 4] ≠ s.rxAt 5)) ∨
    (i = .idcmp ∧ s.pid ≠ s.params.expectedProductId) := by
  cases i <;> simp [ErrorCause, bothWordsValid_eq_false_iff, identityMatches_eq_false_iff]

/-- The operations that write `ST.ERR` (10_state.md R19). -/
theorem mem_errWriters_iff : i ∈ [.sopen, .xfer, .parse, .idcmp, .sclose] ↔ sessionStep i = true ∨ i = .sclose := by
  simp [sessionStep_iff_mem, or_assoc]

/-- A session-step operation has raised its error exactly when it had the cause: without one `ST.ERR` is 0, which is no
error's code. -/
theorem err_eq_raisableError_iff (h : exec i s = .next t) (hstep : sessionStep i = true) :
    t.err = raisableError i ↔ ErrorCause s i := by
  obtain ⟨hraise, hclear, -⟩ := exec_err i s t h
  refine ⟨fun herr => ?_, hraise⟩
  by_contra hcause
  exact raisableError_ne_noError hstep (herr.symm.trans (hclear hcause hstep))

/-- A session-step operation leaves `ST.ERR` at 0 exactly when it had no cause to raise its error. -/
theorem err_eq_noError_iff (h : exec i s = .next t) (hstep : sessionStep i = true) :
    t.err = .noError ↔ ¬ ErrorCause s i := by
  obtain ⟨hraise, hclear, -⟩ := exec_err i s t h
  exact ⟨fun herr hcause => raisableError_ne_noError hstep ((hraise hcause).symm.trans herr),
    fun hcause => hclear hcause hstep⟩

/-- Every operation answers once, with `ok = 0` exactly when it has a cause to raise its error. -/
theorem exec_ok_eq_false_iff (h : exec i s = .next t) :
    ∃ ok data, t.responses = ⟨ok, data⟩ :: s.responses ∧ (ok = false ↔ ErrorCause s i) := by
  obtain ⟨ok, hlog, hok⟩ := exec_answers i s t h
  refine ⟨ok, _, hlog, hok.trans ⟨fun ⟨hstep, herr⟩ => (err_eq_raisableError_iff h hstep).1 herr, fun hcause => ?_⟩⟩
  have hstep := sessionStep_of_errorCause hcause
  exact ⟨hstep, (err_eq_raisableError_iff h hstep).2 hcause⟩

/-- Settles O39: for a session-step operation `ok = 0`, its error in `ST.ERR` and its cause go together
(`exec_ok_eq_false_iff`, `err_eq_raisableError_iff`, `err_eq_noError_iff`); any other operation has no cause. -/
theorem okBitAgreesWithErr : Obligations.OkBitAgreesWithErr := by
  intro i s t h
  obtain ⟨ok, data, hlog, hok⟩ := exec_ok_eq_false_iff h
  obtain ⟨-, -, hother⟩ := exec_err i s t h
  have hok' : ok = true ↔ ¬ ErrorCause s i := by rw [← hok, Bool.not_eq_false]
  refine ⟨ok, data, hlog, fun hstep => ⟨hok.trans (err_eq_raisableError_iff h hstep).symm,
    hok'.trans (err_eq_noError_iff h hstep).symm⟩, fun hstep => ⟨hok'.2 fun hcause => ?_, hother hstep⟩⟩
  exact Bool.false_ne_true (hstep.symm.trans (sessionStep_of_errorCause hcause))

/-- Settles O40: an operation answers `ok = 0` exactly when it has a cause (`exec_ok_eq_false_iff`), which is one of the
listed four (`errorCause_iff`); what `ST.ERR` then is, and otherwise, is `exec_err`. -/
theorem errorsHaveTheirCauses : Obligations.ErrorsHaveTheirCauses := by
  refine ⟨fun i s t h => ?_, rfl, ErrorCode.code_le_four⟩
  obtain ⟨ok, data, hlog, hok⟩ := exec_ok_eq_false_iff h
  obtain ⟨hraise, hclear, hother⟩ := exec_err i s t h
  simp only [hlog, List.head?_cons, Option.map_some, Option.some.injEq, mem_errWriters_iff, not_or]
  refine ⟨hok.trans errorCause_iff, fun hfail => ?_, fun hgood => ?_, fun ⟨hstep, hsclose⟩ => ?_⟩
  · rw [hraise (hok.1 hfail)]
    refine ⟨?_, ?_, ?_, ?_⟩ <;> (rintro rfl; rfl)
  · have hcause : ¬ ErrorCause s i := fun hcause => Bool.false_ne_true ((hok.2 hcause).symm.trans hgood)
    rintro (hstep | rfl)
    · rw [hclear hcause hstep]
      rfl
    · rw [hother rfl]
      rfl
  · rw [hother (Bool.eq_false_iff.2 hstep), if_neg hsclose]

end Sys2Proof.Machine

/-! When an operation is refused (70_reset_and_hazards.md R111): the three ways an operation in range can go, by its
precondition and by whether the transport answers. -/

namespace Sys2Proof.Machine

variable {s : State} {i : Instr}

/-- Out of its precondition every operation is refused (60_exceptions.md R99). -/
theorem exec_refused_of_not_precondition (h : ¬ precondition i s) : ∃ r, exec i s = .refused r := by
  cases i with
  | rdst | crcinit | crcb | crcrd | frame | sopen | sclose => exact absurd trivial h
  | rdtx k => exact ⟨_, exec_rdtx_of_no_frame (Bool.eq_false_iff.2 h) k⟩
  | xfer =>
    refine exec_xfer_refused ((Decidable.em (s.ss = .uninit)).imp_right fun hss => ?_)
    exact Bool.eq_false_iff.2 fun htxv => h ⟨hss, htxv⟩
  | parse => exact ⟨_, exec_parse_of_no_response (Bool.eq_false_iff.2 h)⟩
  | idcmp => exact ⟨_, exec_idcmp_of_not_decoded (Bool.eq_false_iff.2 h)⟩
  | rdrx | wchk | rdw | rdpid => exact ⟨_, require_of_not (Bool.eq_false_iff.2 h) _ _⟩

/-- In its precondition, with its operand in range and an answer to what it asks of the transport, an operation
completes. -/
theorem exec_next_of_precondition (hwf : i.wellFormed = true) (h : precondition i s) (ha : transportAnswers i s) :
    ∃ t, exec i s = .next t := by
  cases i with
  | rdst | crcinit | crcb | crcrd | frame | sclose => exact ⟨_, rfl⟩
  | rdtx => exact ⟨_, exec_rdtx_of_txAt h rfl⟩
  | xfer =>
    obtain ⟨a, ha⟩ := Option.ne_none_iff_exists'.1 ha
    exact ⟨_, exec_xfer_of_answer h.1 h.2 ha⟩
  | rdrx => exact ⟨_, exec_rdrx_of_rxAt h (of_decide_eq_true hwf) rfl⟩
  | wchk => exact ⟨_, execWchk_next.2 ⟨h, of_decide_eq_true hwf, rfl⟩⟩
  | sopen =>
    obtain ⟨a, ha⟩ := Option.ne_none_iff_exists'.1 ha
    exact ⟨_, exec_sopen_of_answer ha⟩
  | parse | rdw | rdpid | idcmp => exact ⟨_, require_of h _ _⟩

theorem exec_sopen_of_silent (ha : s.acquireAnswer = none) : exec .sopen s = .fault .transportSilent := by
  rw [exec, execSopen, ha]

theorem exec_xfer_of_silent (hss : s.ss ≠ .uninit) (htxv : s.txv = true) (ha : s.transferAnswer = none) :
    exec .xfer s = .fault .transportSilent := by
  rw [exec, execXfer, require_of (hasHandle_iff.2 hss), require_of htxv, ha]

/-- In its precondition an operation that the transport leaves without an answer stops, and that is no refusal
(60_exceptions.md R103). -/
theorem exec_fault_of_silent (h : precondition i s) (ha : ¬ transportAnswers i s) :
    exec i s = .fault .transportSilent := by
  cases i with
  | sopen => exact exec_sopen_of_silent (not_not.1 ha)
  | xfer => exact exec_xfer_of_silent h.1 h.2 (not_not.1 ha)
  | _ => exact absurd trivial ha

/-- Settles O41: out of its precondition an operation is refused (`exec_refused_of_not_precondition`); in it, it
completes (`exec_next_of_precondition`) or stops on a silent transport (`exec_fault_of_silent`), and neither is a
refusal. -/
theorem refusedExactlyWhenThePreconditionFails : Obligations.RefusedExactlyWhenThePreconditionFails := by
  refine fun i s hwf => ⟨⟨fun ⟨r, hr⟩ hpre => ?_, exec_refused_of_not_precondition⟩, exec_next_of_precondition hwf⟩
  by_cases ha : transportAnswers i s
  · obtain ⟨t, ht⟩ := exec_next_of_precondition hwf hpre ha
    cases hr.symm.trans ht
  · cases hr.symm.trans (exec_fault_of_silent hpre ha)

end Sys2Proof.Machine

/-! The rows of the opcode table, request words written out, and operands that no request word carries. -/

namespace Sys2Proof.Machine

variable {w : ReqWord} {i : Instr} {s : State}

/-! ### Rows of opcode_table.json -/

/-- The encoding of an operation matches the operation's own row. -/
theorem encode_and_tableMask (i : Instr) : encode i &&& i.tableMask = i.tableMatch := by
  cases i with
  | rdst => exact Laws.RowMatch.rdst
  | crcinit => exact Laws.RowMatch.crcinit
  | crcb b => exact Laws.RowMatch.crcb b
  | crcrd => exact Laws.RowMatch.crcrd
  | frame c => exact Laws.RowMatch.frame c
  | rdtx k => exact Laws.RowMatch.rdtx k
  | xfer => exact Laws.RowMatch.xfer
  | rdrx j => exact Laws.RowMatch.rdrx j
  | wchk k => exact Laws.RowMatch.wchk k
  | parse => exact Laws.RowMatch.parse
  | rdw k => exact Laws.RowMatch.rdw k
  | rdpid => exact Laws.RowMatch.rdpid
  | idcmp => exact Laws.RowMatch.idcmp
  | sopen => exact Laws.RowMatch.sopen
  | sclose => exact Laws.RowMatch.sclose

theorem op_and (v w : ReqWord) : ReqWord.op (v &&& w) = ReqWord.op v &&& ReqWord.op w :=
  BitVec.extractLsb'_and

theorem op_tableMatch (i : Instr) : ReqWord.op i.tableMatch = i.selector := by
  cases i <;> simp [Instr.tableMatch, Instr.selector, ReqWord.op]

theorem op_tableMask (i : Instr) : ReqWord.op i.tableMask = BitVec.allOnes 4 := by
  cases i <;> simp [Instr.tableMask, ReqWord.op]

/-- A row looks at every bit of the selector, so a word that matches it has its selector. -/
theorem op_of_row (h : w &&& i.tableMask = i.tableMatch) : ReqWord.op w = i.selector := by
  rw [← op_tableMatch, ← h, op_and, op_tableMask, BitVec.and_allOnes]

/-- Settles O3: a decoded word is the encoding of its operation, which matches the row (`encode_and_tableMask`); and two
rows that a word matches have the word's selector (`op_of_row`). -/
theorem decodedWordsMatchTheirTableRow : Obligations.DecodedWordsMatchTheirTableRow := by
  refine ⟨fun w i h => ?_, fun w i j hi hj => (op_of_row hi).symm.trans (op_of_row hj)⟩
  obtain ⟨-, rfl⟩ := decode_ok_iff.1 h
  exact encode_and_tableMask i

/-- Settles O4: the decoder computes on each of the twenty words. -/
theorem handWrittenWordsDecode : Obligations.HandWrittenWordsDecode := by
  unfold Obligations.HandWrittenWordsDecode
  decide

/-! ### Operands outside the buffer -/

theorem decode_ne_of_not_wellFormed (h : i.wellFormed = false) (w : ReqWord) : decode w ≠ .ok i :=
  fun hd => Bool.false_ne_true (h.symm.trans (decode_ok_iff.1 hd).1)

theorem exec_rdrx_of_outside {j : BitVec 5} (hj : 18 ≤ j.toNat) (hrxv : s.rxv = true) :
    exec (.rdrx j) s = .fault (.noSuchAddress .rx j.toNat) := by
  have hout : ¬ rxIndex j + 1 ≤ Space.rx.size := by
    simp only [rxIndex, Space.size, Config.respLen]
    omega
  exact (require_of hrxv _ _).trans (checkAddr_of_not hout _)

theorem exec_wchk_of_outside {k : BitVec 3} (hk : 6 ≤ k.toNat) (hrxv : s.rxv = true) :
    exec (.wchk k) s = .fault (.noSuchAddress .rx (3 * k.toNat)) := by
  have hout : ¬ wordAddr (wordIndex k) + Config.wordStride ≤ Space.rx.size := by
    simp only [wordAddr, wordIndex, Space.size, Config.respLen, Config.wordStride]
    omega
  exact (require_of hrxv _ _).trans (checkAddr_of_not hout _)

/-- Settles O43: what a word decodes to is well-formed (`decode_ne_of_not_wellFormed`), and an access outside `RX`
stops (`exec_rdrx_of_outside`, `exec_wchk_of_outside`). -/
theorem operandsOutsideTheBufferStop : Obligations.OperandsOutsideTheBufferStop := by
  refine ⟨fun w j hj => ?_, fun w k hk => ?_, fun _ _ => exec_rdrx_of_outside, fun _ _ => exec_wchk_of_outside⟩
  · exact decode_ne_of_not_wellFormed (i := .rdrx j) (decide_eq_false (by omega)) w
  · exact decode_ne_of_not_wellFormed (i := .wchk k) (decide_eq_false (by omega)) w

/-- Settles O42: the two operations that ask the transport, where it never answers (`exec_sopen_of_silent`,
`exec_xfer_of_silent`). -/
theorem silentTransportLeavesNoNextState : Obligations.SilentTransportLeavesNoNextState :=
  ⟨fun _ => exec_sopen_of_silent, fun _ => exec_xfer_of_silent⟩

end Sys2Proof.Machine

/-! The properties of the CRC (40_crc8.md R62): the byte step is linear and a bijection, the residue of a valid word is
0, and one or two flipped bits are detected. -/

namespace Sys2Proof.Machine

/-! ### The byte step is a bijection (items 1 and 2) -/

/-- The form of the byte step in which Mathlib's laws of iterates apply. -/
theorem crcStep_eq_iterate (c b : Byte) : crcStep c b = crcShift^[8] (c ^^^ b) := by
  rw [crcStep, crcShifts_eq_iterate]
  rfl

theorem crcStep_zero_eq : crcStep 0 = crcShift^[8] :=
  funext fun b => (crcStep_eq_iterate 0 b).trans (congrArg _ BitVec.zero_xor)

/-- A shift iteration is linear, so it is injective once it takes nothing but 0 to 0. -/
theorem crcShift_injective : Function.Injective crcShift := by
  have hker : ∀ x : Byte, crcShift x = 0 → x = 0 := by decide
  intro x y h
  refine BitVec.xor_eq_zero_iff.1 (hker _ ?_)
  rw [crcShift_xor, h]
  exact BitVec.xor_self

theorem crcStep_injective (c : Byte) : Function.Injective (crcStep c) := by
  intro x y h
  rw [crcStep_eq_iterate, crcStep_eq_iterate] at h
  exact (BitVec.xor_right_inj c).1 (crcShift_injective.iterate 8 h)

/-- Settles O8: an injective byte step is a bijection (`crcStep_injective`), and the CRC of two bytes is the step from
the CRC of the first. -/
theorem crcStepIsABijection : Obligations.CrcStepIsABijection :=
  ⟨crcStep_eq_crcStep_zero, fun _ _ h => crcStep_injective 0 h,
    fun b0 v => (Finite.injective_iff_bijective.1 (crcStep_injective (crc8 [b0]))).existsUnique v⟩

/-! ### Linearity (item 3) -/

theorem crcShifts_xor (n : Nat) (x y : Byte) : crcShifts n (x ^^^ y) = crcShifts n x ^^^ crcShifts n y := by
  induction n generalizing x y with
  | zero => rfl
  | succ n ih => simp only [crcShifts, crcShift_xor, ih]

/-- The byte step is linear in the accumulator and the byte together. -/
theorem crcStep_xor (c d a b : Byte) : crcStep (c ^^^ d) (a ^^^ b) = crcStep c a ^^^ crcStep d b := by
  rw [crcStep, crcStep, crcStep, ← crcShifts_xor]
  congr 1
  ac_rfl

/-- Linearity along two sequences and a sequence of zeros, from any three accumulators. -/
theorem foldl_crcStep_xor (c d e : Byte) {s t : List Byte} (h : s.length = t.length) :
    s.foldl crcStep c ^^^ t.foldl crcStep d ^^^ (List.replicate s.length 0).foldl crcStep e =
      (List.zipWith (· ^^^ ·) s t).foldl crcStep (c ^^^ d ^^^ e) := by
  induction s generalizing c d e t with
  | nil =>
    cases t with
    | nil => rfl
    | cons b t => cases h
  | cons a s ih =>
    cases t with
    | nil => cases h
    | cons b t =>
      have hzero : a ^^^ b ^^^ 0 = a ^^^ b := BitVec.xor_zero
      have hstep : crcStep (c ^^^ d ^^^ e) (a ^^^ b) = crcStep c a ^^^ crcStep d b ^^^ crcStep e 0 := by
        rw [← hzero, crcStep_xor, crcStep_xor]
      simp only [List.foldl_cons, List.length_cons, List.replicate_succ, List.zipWith_cons_cons, hstep]
      exact ih _ _ _ (Nat.succ.inj h)

/-- Settles O9: linearity of the byte step from 0, and along the sequences from 0xFF, which XORed three times is 0xFF
again (`foldl_crcStep_xor`). -/
theorem crcIsLinearOverXor : Obligations.CrcIsLinearOverXor :=
  ⟨crcStep_xor 0 0, fun _ _ => foldl_crcStep_xor _ _ _⟩

/-! ### The residue of a valid word (item 4) -/

/-- The only byte that takes an accumulator to 0 is the accumulator itself. -/
theorem crcStep_eq_zero_iff {c b : Byte} : crcStep c b = 0 ↔ c = b := by
  constructor
  · exact fun h => crcStep_injective c ((crcStep_self c).trans h.symm)
  · rintro rfl
    exact crcStep_self c

theorem crc8_concat_eq_zero_iff {s : List Byte} {c : Byte} : crc8 (s ++ [c]) = 0 ↔ crc8 s = c := by
  rw [crc8_concat, crcStep_eq_zero_iff]

/-- Settles O10: a sequence has residue 0 exactly when its last byte is the CRC of the others
(`crc8_concat_eq_zero_iff`). -/
theorem validWordHasZeroResidue : Obligations.ValidWordHasZeroResidue :=
  ⟨fun b0 b1 => (crc8_concat_eq_zero_iff (s := [b0, b1])).2 rfl,
    fun hi lo _ => (crc8_concat_eq_zero_iff (s := [hi, lo])).symm⟩

/-! ### One and two flipped bits (item 5)

By linearity a flip pattern is detected exactly when its syndrome is not 0. The syndrome of bit `p` is 1 shifted `p`
times, and 1 does not come back within 24 shifts: so no syndrome of one bit is 0, and no two are equal. -/

/-- The difference between the CRC of the payload bits of `e` (23:8, from accumulator 0) and its CRC bits (7:0). -/
def syndrome (e : BitVec 24) : Byte :=
  crcStep (crcStep 0 (e.extractLsb' 16 8)) (e.extractLsb' 8 8) ^^^ e.extractLsb' 0 8

theorem crc8_pair_xor (hi lo a b : Byte) :
    crc8 [hi ^^^ a, lo ^^^ b] = crc8 [hi, lo] ^^^ crcStep (crcStep 0 a) b := by
  have hinit : Config.crcInit ^^^ 0 = Config.crcInit := BitVec.xor_zero
  rw [crc8_pair, crc8_pair, ← crcStep_xor, ← crcStep_xor, hinit]

/-- Flipping the bits `e` of a valid word leaves it valid exactly when the syndrome of `e` is 0. -/
theorem flipped_valid_iff {hi lo c : Byte} (h : crc8 [hi, lo] = c) (e : BitVec 24) :
    crc8 [hi ^^^ e.extractLsb' 16 8, lo ^^^ e.extractLsb' 8 8] = c ^^^ e.extractLsb' 0 8 ↔ syndrome e = 0 := by
  rw [crc8_pair_xor, h, BitVec.xor_right_inj]
  exact BitVec.xor_eq_zero_iff.symm

theorem syndrome_xor (e f : BitVec 24) : syndrome (e ^^^ f) = syndrome e ^^^ syndrome f := by
  have hzero : (0 : Byte) = 0 ^^^ 0 := rfl
  simp only [syndrome, BitVec.extractLsb'_xor]
  conv_lhs => rw [hzero, crcStep_xor, crcStep_xor]
  ac_rfl

/-- A bit of a data word is bit `r` of byte `k`, counted from the CRC byte. -/
theorem exists_byte_bit {p : Nat} (hp : p < 24) : ∃ (k : Fin 3) (r : Fin 8), p = 8 * k.val + r.val :=
  ⟨⟨p / 8, by omega⟩, ⟨p % 8, by omega⟩, (Nat.div_add_mod p 8).symm⟩

/-- Fewer than eight shifts of 1 shift nothing out, and every eight shifts are a byte step. -/
theorem crcShift_iterate_one (k : Nat) (r : Fin 8) :
    crcShift^[8 * k + r.val] 1 = (crcStep 0)^[k] (1#8 <<< r.val) := by
  have hbit : ∀ r : Fin 8, crcShift^[r.val] 1 = 1#8 <<< r.val := by decide
  rw [Function.iterate_add_apply, Function.iterate_mul, ← crcStep_zero_eq, hbit]

theorem syndrome_one_shiftLeft {p : Nat} (hp : p < 24) : syndrome (1#24 <<< p) = crcShift^[p] 1 := by
  have hbytes : ∀ (k : Fin 3) (r : Fin 8),
      (1#24 <<< (8 * k.val + r.val)).extractLsb' 16 8 = (if k = 2 then 1#8 <<< r.val else 0) ∧
      (1#24 <<< (8 * k.val + r.val)).extractLsb' 8 8 = (if k = 1 then 1#8 <<< r.val else 0) ∧
      (1#24 <<< (8 * k.val + r.val)).extractLsb' 0 8 = (if k = 0 then 1#8 <<< r.val else 0) := by decide
  obtain ⟨k, r, rfl⟩ := exists_byte_bit hp
  obtain ⟨hhi, hmid, hlo⟩ := hbytes k r
  rw [crcShift_iterate_one, syndrome, hhi, hmid, hlo, crcStep_eq_crcStep_zero]
  fin_cases k <;> simp [crcStep_self]

/-- 1 does not come back within 24 shifts: not as a bit, not after one byte step, and not after two, of which the second
comes to 1 from 0x34 only. -/
theorem crcShift_iterate_one_ne_one {d : Nat} (hpos : d ≠ 0) (hd : d < 24) : crcShift^[d] 1 ≠ 1 := by
  have hbit : ∀ r : Fin 8, r.val ≠ 0 → 1#8 <<< r.val ≠ 1 := by decide
  have hone : ∀ r : Fin 8, crcStep 0 (1#8 <<< r.val) ≠ 1 := by decide
  have htwo : ∀ r : Fin 8, crcStep 0 (1#8 <<< r.val) ≠ 0x34 := by decide
  have hback : crcStep 0 0x34 = 1 := by decide
  obtain ⟨k, r, rfl⟩ := exists_byte_bit hd
  rw [crcShift_iterate_one]
  match k with
  | 0 => exact hbit r (by simpa using hpos)
  | 1 => exact hone r
  | 2 => exact fun h => htwo r (crcStep_injective 0 (h.trans hback.symm))

theorem crcShift_iterate_one_ne_zero (p : Nat) : crcShift^[p] 1 ≠ 0 := by
  have hfix : crcShift^[p] 0 = 0 := Function.iterate_fixed rfl p
  exact fun h => absurd (crcShift_injective.iterate p (h.trans hfix.symm)) (by decide)

theorem crcShift_iterate_one_inj {p q : Nat} (hp : p < 24) (hq : q < 24) (h : crcShift^[p] 1 = crcShift^[q] 1) :
    p = q := by
  have hdiff {m n : Nat} (hm : m < 24) (hmn : crcShift^[m] 1 = crcShift^[n] 1) : m - n = 0 := by
    by_contra hne
    exact crcShift_iterate_one_ne_one hne (by omega) (Function.iterate_cancel crcShift_injective hmn)
  have := hdiff hp h
  have := hdiff hq h.symm
  omega

theorem one_shiftLeft_or_eq_xor : ∀ {p q : Fin 24}, p ≠ q →
    1#24 <<< p.val ||| 1#24 <<< q.val = 1#24 <<< p.val ^^^ 1#24 <<< q.val := by decide

/-- Settles O11: the syndrome of the flips (`flipped_valid_iff`) is that of one bit, which is not 0, or the XOR of two
different ones (`crcShift_iterate_one_inj`). -/
theorem crcDetectsOneAndTwoBitErrors : Obligations.CrcDetectsOneAndTwoBitErrors := by
  intro hi lo c p q hvalid e hflipped
  have hzero : syndrome e = 0 := (flipped_valid_iff hvalid e).1 hflipped
  by_cases hpq : p = q
  · subst hpq
    have he : e = 1#24 <<< p.val := BitVec.or_self
    rw [he, syndrome_one_shiftLeft p.isLt] at hzero
    exact crcShift_iterate_one_ne_zero p hzero
  · have he : e = 1#24 <<< p.val ^^^ 1#24 <<< q.val := one_shiftLeft_or_eq_xor hpq
    rw [he, syndrome_xor, syndrome_one_shiftLeft p.isLt, syndrome_one_shiftLeft q.isLt] at hzero
    exact hpq (Fin.ext (crcShift_iterate_one_inj p.isLt q.isLt (BitVec.xor_eq_zero_iff.1 hzero)))

end Sys2Proof.Machine

/-! The frame of the operations (10_state.md R8 to R19): which fields each one writes, and that nothing else changes. -/

namespace Sys2Proof.Machine

variable {s t : State} {i : Instr}

/-- The state before, with the fields that the rules let the operation write taken from the state after. -/
def written (s t : State) : Instr → State
  | .crcinit | .crcb _ => { s with crc := t.crc, responses := t.responses }
  | .frame _ => { s with tx := t.tx, txv := t.txv, responses := t.responses }
  | .xfer => { s with
      rx := t.rx, ss := t.ss, rxv := t.rxv, dv := t.dv, wok := t.wok, err := t.err,
      transfers := t.transfers, calls := t.calls, draws := t.draws, responses := t.responses }
  | .wchk _ => { s with wok := t.wok, responses := t.responses }
  | .parse => { s with w0 := t.w0, w1 := t.w1, ss := t.ss, dv := t.dv, err := t.err, responses := t.responses }
  | .idcmp => { s with ss := t.ss, err := t.err, responses := t.responses }
  | .sopen => { s with
      ss := t.ss, txv := t.txv, rxv := t.rxv, dv := t.dv, wok := t.wok, err := t.err,
      acquires := t.acquires, calls := t.calls, draws := t.draws, responses := t.responses }
  | .sclose => { s with
      ss := t.ss, txv := t.txv, rxv := t.rxv, dv := t.dv, wok := t.wok, err := t.err, responses := t.responses }
  | .rdst | .crcrd | .rdtx _ | .rdrx _ | .rdw _ | .rdpid => { s with responses := t.responses }

/-- No operation writes another field than those of `written`. The frame of one field follows by reading that field off
both sides. -/
theorem exec_written : ∀ (i : Instr) (s t : State), exec i s = .next t → t = written s t i :=
  exec_next_cases
    (h0 := fun _ => rfl)
    (h1 := fun _ => rfl)
    (h2 := fun _ _ => rfl)
    (h3 := fun _ => rfl)
    (h4 := fun _ _ => rfl)
    (h5 := fun _ _ _ => rfl)
    (h6 := fun _ a _ _ _ => by cases a <;> rfl)
    (h7 := fun _ _ _ _ => rfl)
    (h8 := fun _ _ _ _ => rfl)
    (h9 := fun _ _ _ => rfl)
    (h9' := fun _ _ _ => rfl)
    (hA := fun _ _ _ => rfl)
    (hB := fun _ _ => rfl)
    (hC := fun _ _ _ => rfl)
    (hC' := fun _ _ _ => rfl)
    (hD := fun _ a _ => by cases a <;> rfl)
    (hE := fun _ => rfl)

section
variable (h : exec i s = .next t)
include h

theorem exec_keeps_inputs : t.inputs = s.inputs := by
  have hw := congrArg State.inputs (exec_written i s t h)
  cases i <;> exact hw

theorem exec_keeps_params : t.params = s.params := by
  have hw := congrArg State.params (exec_written i s t h)
  cases i <;> exact hw

theorem exec_keeps_tx (hi : ∀ c, i ≠ .frame c) : t.tx = s.tx := by
  have hw := congrArg State.tx (exec_written i s t h)
  cases i with
  | frame c => exact absurd rfl (hi c)
  | _ => exact hw

theorem exec_keeps_rx (hi : i ≠ .xfer) : t.rx = s.rx := by
  have hw := congrArg State.rx (exec_written i s t h)
  cases i with
  | xfer => exact absurd rfl hi
  | _ => exact hw

theorem exec_keeps_words (hi : i ≠ .parse) : t.w0 = s.w0 ∧ t.w1 = s.w1 := by
  have hw0 := congrArg State.w0 (exec_written i s t h)
  have hw1 := congrArg State.w1 (exec_written i s t h)
  cases i with
  | parse => exact absurd rfl hi
  | _ => exact ⟨hw0, hw1⟩

theorem exec_keeps_rxv (hi : i ∉ [.xfer, .sopen, .sclose]) : t.rxv = s.rxv := by
  have hw := congrArg State.rxv (exec_written i s t h)
  cases i with
  | xfer | sopen | sclose => simp at hi
  | _ => exact hw

theorem exec_keeps_dv (hi : i ∉ [.parse, .xfer, .sopen, .sclose]) : t.dv = s.dv := by
  have hw := congrArg State.dv (exec_written i s t h)
  cases i with
  | parse | xfer | sopen | sclose => simp at hi
  | _ => exact hw

theorem exec_keeps_wok (hwchk : ∀ k, i ≠ .wchk k) (hi : i ∉ [.xfer, .sopen, .sclose]) : t.wok = s.wok := by
  have hw := congrArg State.wok (exec_written i s t h)
  cases i with
  | wchk k => exact absurd rfl (hwchk k)
  | xfer | sopen | sclose => simp at hi
  | _ => exact hw

/-- Only the two operations that ask the transport add to what was asked of it and draw free values. -/
theorem exec_keeps_calls (hi : i ∉ [.sopen, .xfer]) : t.calls = s.calls ∧ t.draws = s.draws := by
  have hcalls := congrArg State.calls (exec_written i s t h)
  have hdraws := congrArg State.draws (exec_written i s t h)
  cases i with
  | sopen | xfer => simp at hi
  | _ => exact ⟨hcalls, hdraws⟩

theorem exec_keeps_acquires (hi : i ≠ .sopen) : t.acquires = s.acquires := by
  have hw := congrArg State.acquires (exec_written i s t h)
  cases i with
  | sopen => exact absurd rfl hi
  | _ => exact hw

theorem exec_keeps_transfers (hi : i ≠ .xfer) : t.transfers = s.transfers := by
  have hw := congrArg State.transfers (exec_written i s t h)
  cases i with
  | xfer => exact absurd rfl hi
  | _ => exact hw

/-- The accumulator is written by `CRCINIT` and `CRCB` (10_state.md R8); `exec_keeps_crc` leaves `CRCRD` out as well. -/
theorem exec_keeps_accumulator (hinit : i ≠ .crcinit) (hfeed : ∀ b, i ≠ .crcb b) : t.crc = s.crc := by
  have hw := congrArg State.crc (exec_written i s t h)
  cases i with
  | crcinit => exact absurd rfl hinit
  | crcb b => exact absurd rfl (hfeed b)
  | _ => exact hw

theorem exec_keeps_ss (hi : i ∉ [.sopen, .sclose, .xfer, .parse, .idcmp]) : t.ss = s.ss :=
  (exec_session i s t h).1.trans (sessionAfter_of_not_mem hi)

theorem exec_keeps_err (hi : i ∉ [.sopen, .xfer, .parse, .idcmp, .sclose]) : t.err = s.err := by
  obtain ⟨hstep, hsclose⟩ := not_or.1 (mt mem_errWriters_iff.2 hi)
  rw [(exec_err i s t h).2.2 (Bool.eq_false_iff.2 hstep), if_neg hsclose]

end

/-- Settles O44: the frame of each field, one lemma per field. -/
theorem onlyTheListedOperationsWrite : Obligations.OnlyTheListedOperationsWrite := fun i s t h =>
  ⟨exec_keeps_accumulator h,
    fun hframe a => congrArg (Memory.byteAt · a) (exec_keeps_tx h hframe),
    fun hxfer a => congrArg (Memory.byteAt · a) (exec_keeps_rx h hxfer),
    exec_keeps_words h,
    exec_keeps_ss h,
    fun hframe hsopen hsclose => (exec_keeps_frame i s t h hframe hsopen hsclose).2,
    exec_keeps_rxv h,
    exec_keeps_dv h,
    exec_keeps_wok h,
    exec_keeps_err h,
    exec_keeps_calls h,
    exec_keeps_acquires h,
    exec_keeps_transfers h,
    exec_keeps_inputs h,
    exec_keeps_params h⟩

/-! ### Decoded words (42_parser.md R77, 70_reset_and_hazards.md R112) -/

/-- An `XFER`, an `SOPEN` or an `SCLOSE` that completes has dropped the decoded words, however it ended. -/
theorem exec_drops_words (hi : i ∈ [.xfer, .sopen, .sclose]) (h : exec i s = .next t) : t.dv = false := by
  simp only [List.mem_cons, List.not_mem_nil, or_false] at hi
  obtain rfl | rfl | rfl := hi
  · obtain ⟨-, -, a, -, rfl⟩ := execXfer_next.1 h
    cases a <;> rfl
  · obtain ⟨a, -, rfl⟩ := execSopen_next.1 h
    cases a <;> rfl
  · cases h
    rfl

/-- After an operation other than `PARSE` decoded words are the ones from before, with their response. -/
theorem decoded_before_of_exec (h : exec i s = .next t) (hi : i ≠ .parse) (hdv : t.dv = true) :
    s.dv = true ∧ t.rx = s.rx ∧ t.w0 = s.w0 ∧ t.w1 = s.w1 := by
  have hdrop : i ∉ [.xfer, .sopen, .sclose] := fun hmem =>
    Bool.false_ne_true ((exec_drops_words hmem h).symm.trans hdv)
  have hxfer : i ≠ .xfer := by
    rintro rfl
    exact hdrop List.mem_cons_self
  have hkeep : t.dv = s.dv := exec_keeps_dv h (List.not_mem_cons_of_ne_of_not_mem hi hdrop)
  exact ⟨hkeep ▸ hdv, exec_keeps_rx h hxfer, exec_keeps_words h hi⟩

/-- Settles O28: a `PARSE` that leaves `DV = 1` has found both words valid, and after any other operation the decoded
words are those from before (`decoded_before_of_exec`). -/
theorem onlyParseMakesWordsReadable : Obligations.OnlyParseMakesWordsReadable := by
  intro i s t h hdv
  by_cases hi : i = .parse
  · subst hi
    obtain ⟨hrxv, ⟨hvalid, -⟩ | ⟨-, rfl⟩⟩ := execParse_next.1 h
    · obtain ⟨hcrc0, hcrc1⟩ := bothWordsValid_iff.1 hvalid
      exact .inl ⟨rfl, hrxv, hcrc0, hcrc1, execParse_decoded h hdv⟩
    · cases hdv
  · exact .inr (decoded_before_of_exec h hi hdv)

/-- Without a `PARSE` a sequence does not make words readable. -/
theorem runOps_keeps_not_decoded {ops : List Instr} (hparse : Instr.parse ∉ ops) (h : runOps ops s = .next t)
    (hdv : s.dv = false) : t.dv = false := by
  refine runOps_keeps (P := fun u => u.dv = false) (fun i hi u v he hu => Bool.eq_false_iff.2 fun hv => ?_) h hdv
  obtain ⟨hdv, -⟩ := decoded_before_of_exec he (fun hip => hparse (hip ▸ hi)) hv
  exact Bool.false_ne_true (hu.symm.trans hdv)

/-- Settles O36: the first operation drops the decoded words (`exec_drops_words`), the others do not bring any back
(`runOps_keeps_not_decoded`), and with `DV = 0` the three readers are refused. -/
theorem staleWordsAreNeverRead : Obligations.StaleWordsAreNeverRead := by
  intro i ops s t hi hparse hrun
  obtain ⟨u, hfirst, hrest⟩ := runOps_cons_next.1 hrun
  have hdv : t.dv = false := runOps_keeps_not_decoded hparse hrest (exec_drops_words (by simpa using hi) hfirst)
  exact ⟨fun k => ⟨_, require_of_not hdv _ _⟩, ⟨_, require_of_not hdv _ _⟩, ⟨_, exec_idcmp_of_not_decoded hdv⟩⟩

/-! ### Sessions without a handle, and verification retried (42_parser.md R71, 43_session.md R88) -/

/-- Without a handle `XFER`, `PARSE` and `IDCMP` are refused, so an operation other than `SOPEN` that completes leaves
the session and the transport alone. -/
theorem exec_of_no_handle (hinv : Inv s) (hss : s.ss = .uninit) (hi : i ≠ .sopen) (h : exec i s = .next t) :
    t.ss = .uninit ∧ t.calls = s.calls ∧ t.transfers = s.transfers := by
  have hrxv := hinv.rxv_of_uninit hss
  cases i with
  | sopen => exact absurd rfl hi
  | xfer =>
    obtain ⟨r, hrefused⟩ := exec_xfer_refused (.inl hss)
    cases h.symm.trans hrefused
  | parse => cases h.symm.trans (exec_parse_of_no_response hrxv)
  | idcmp => cases h.symm.trans (exec_idcmp_of_not_decoded (hinv.dv_of_no_response hrxv))
  | sclose => cases h; exact ⟨rfl, rfl, rfl⟩
  | _ => exact ⟨(exec_keeps_ss h (by simp)).trans hss, (exec_keeps_calls h (by simp)).1, exec_keeps_transfers h nofun⟩

/-- Settles O37: each operation of the sequence keeps the relations (`exec_keeps_inv`), the session without handle and
what was asked of the transport (`exec_of_no_handle`). -/
theorem noTransactionWithoutAHandle : Obligations.NoTransactionWithoutAHandle := by
  intro ops s t hinv hss hsopen hrun
  refine (runOps_keeps
    (P := fun u => Inv u ∧ u.ss = .uninit ∧ u.calls = s.calls ∧ u.transfers = s.transfers)
    ?_ hrun ⟨hinv, hss, rfl, rfl⟩).2
  rintro i hi u v he ⟨hu, huss, hcalls, htransfers⟩
  obtain ⟨hvss, hcalls', htransfers'⟩ := exec_of_no_handle hu huss (fun e => hsopen (e ▸ hi)) he
  exact ⟨exec_keeps_inv i u v he hu, hvss, hcalls'.trans hcalls, htransfers'.trans htransfers⟩

section
variable {b : Vector Byte 18} (hrx : s.rx = Memory.fill b.toList)
include hrx

/-- `PARSE`'s condition on a response that the transport has given. -/
theorem bothWordsValid_iff_of_response :
    s.bothWordsValid = true ↔ crc8 [b[0], b[1]] = b[2] ∧ crc8 [b[3], b[4]] = b[5] := by
  have hbyte (j : Nat) (hj : j < 18) : s.rxAt j = b[j] := rxAt_of_response hrx hj
  rw [bothWordsValid_iff, hbyte, hbyte, hbyte, hbyte, hbyte, hbyte]

/-- The identifier that `PARSE` decodes from a response that the transport has given. -/
theorem decodeWords_pid_of_response : s.decodeWords.pid = b[0] ++ b[1] ++ b[3] ++ b[4] := by
  have hbyte (j : Nat) (hj : j < 18) : s.rxAt j = b[j] := rxAt_of_response hrx hj
  rw [State.pid, State.decodeWords_w0, State.decodeWords_w1, hbyte, hbyte, hbyte, hbyte]
  exact BitVec.append_assoc'

end

/-- Settles O35: `XFER` loads the response (`exec_xfer_of_answer`), and its verification ends in a match
(`runVerification_of_match`). -/
theorem verificationCanBeRetried : Obligations.VerificationCanBeRetried := by
  intro s b hss htxv hanswer h0 h1 hpid
  have hxfer := exec_xfer_of_answer hss htxv hanswer
  have hverify := runVerification_of_match (s := s.beginTransfer.askTransfer.endTransfer (.ok b)) rfl
    ((bothWordsValid_iff_of_response rfl).2 ⟨h0, h1⟩) ((decodeWords_pid_of_response rfl).trans hpid)
  exact ⟨_, (runUntilError_cons_of_ok hxfer rfl).trans hverify, rfl, rfl, htxv, rfl⟩

end Sys2Proof.Machine

/-! What the operations do not look at: the host's coming inputs (10_state.md R27), and the bytes of `RX` other than
those an operation reads (20_memory.md R36, 42_parser.md R78). -/

namespace Sys2Proof.Machine

variable {s t : State} {i : Instr}

/-! ### Comparing outcomes -/

theorem mapNext_congr {f g : State → State} {o : Host.Outcome State Fault Refusal}
    (h : ∀ t, o = .next t → f t = g t) : mapNext f o = mapNext g o := by
  cases o with
  | next t => exact congrArg _ (h t rfl)
  | fault r => rfl
  | refused r => rfl

theorem mapNext_id (o : Host.Outcome State Fault Refusal) : mapNext id o = o := by
  cases o <;> rfl

/-! ### Noninterference -/

/-- The addresses of `RX` whose bytes an operation looks at (20_memory.md R36). -/
def rxReads : Instr → List Nat
  | .rdrx j => [j.toNat]
  | .wchk k => List.range' (3 * k.toNat) 3
  | .parse => List.range 6
  | _ => []

/-- A state after the operation, with other inputs, and with other contents of `RX` unless the operation is `XFER`,
which replaces them. -/
def State.exchanged (xs : List HostInput) (m : Memory) : Instr → State → State
  | .xfer, t => { t with inputs := xs }
  | _, t => { t with inputs := xs, rx := m }

/-- The validity of word `k` depends on its three bytes alone (42_parser.md R73). -/
theorem wordValid_congr {k : Nat} (h : ∀ a, 3 * k ≤ a → a < 3 * k + 3 → t.rxAt a = s.rxAt a) :
    t.wordValid k = s.wordValid k := by
  simp only [State.wordValid, wordAddr, Config.wordStride]
  rw [h _ (by omega) (by omega), h _ (by omega) (by omega), h _ (by omega) (by omega)]

/-- No operation looks at the inputs that wait, or at a byte of `RX` that it does not read. -/
theorem exec_with_inputs_rx {m : Memory} (hm : ∀ a ∈ rxReads i, Memory.byteAt m a = s.rxAt a)
    (xs : List HostInput) :
    exec i { s with inputs := xs, rx := m } = mapNext (State.exchanged xs m i) (exec i s) := by
  cases i with
  | rdst | crcinit | crcb b | crcrd | frame c | sclose => rfl
  | rdtx k => simp only [exec, execRdtx, mapNext_require, mapNext_checkAddr]; rfl
  | rdw k => simp only [exec, execRdw, mapNext_require]; rfl
  | rdpid => simp only [exec, execRdpid, mapNext_require]; rfl
  | rdrx j =>
    have hbyte : ({ s with inputs := xs, rx := m } : State).rxAt (rxIndex j) = s.rxAt (rxIndex j) :=
      hm _ (by simp [rxReads, rxIndex])
    simp only [exec, execRdrx, mapNext_require, mapNext_checkAddr, hbyte]
    rfl
  | wchk k =>
    have hvalid : ({ s with inputs := xs, rx := m } : State).wordValid (wordIndex k) = s.wordValid (wordIndex k) :=
      wordValid_congr fun a hlow hhigh => hm a (List.mem_range'_1.2 ⟨hlow, hhigh⟩)
    simp only [exec, execWchk, mapNext_require, mapNext_checkAddr, hvalid]
    rfl
  | parse =>
    have hbyte (a : Nat) (ha : a < 6) : ({ s with inputs := xs, rx := m } : State).rxAt a = s.rxAt a :=
      hm a (List.mem_range.2 ha)
    have hvalid : ({ s with inputs := xs, rx := m } : State).bothWordsValid = s.bothWordsValid :=
      congrArg₂ and (wordValid_congr fun a _ ha => hbyte a (by omega))
        (wordValid_congr fun a _ ha => hbyte a (by omega))
    simp only [exec, execParse, mapNext_require, hvalid, State.decodeWords, hbyte, Nat.reduceLT]
    cases s.bothWordsValid <;> rfl
  | idcmp =>
    have hmatches : ({ s with inputs := xs, rx := m } : State).identityMatches = s.identityMatches := rfl
    simp only [exec, execIdcmp, mapNext_require, hmatches]
    cases s.identityMatches <;> rfl
  | xfer =>
    have hanswer : ({ s with inputs := xs, rx := m } : State).transferAnswer = s.transferAnswer := rfl
    simp only [exec, execXfer, mapNext_require, hanswer]
    cases s.transferAnswer with
    | none => rfl
    | some a => cases a <;> rfl
  | sopen =>
    have hanswer : ({ s with inputs := xs, rx := m } : State).acquireAnswer = s.acquireAnswer := rfl
    simp only [exec, execSopen, hanswer]
    cases s.acquireAnswer with
    | none => rfl
    | some a => cases a <;> rfl

/-- An operation performed while other inputs wait does the same, and leaves those inputs waiting. -/
theorem exec_with_inputs (i : Instr) (s : State) (xs : List HostInput) :
    exec i { s with inputs := xs } = mapNext (fun t => { t with inputs := xs }) (exec i s) := by
  refine (exec_with_inputs_rx (m := s.rx) (fun _ _ => rfl) xs).trans (mapNext_congr fun t h => ?_)
  cases i with
  | xfer => rfl
  | _ => simp only [State.exchanged, ← exec_keeps_rx h nofun]

/-- Settles O25: bytes 6 to 17 are not among those that the operation reads (`exec_with_inputs_rx`). -/
theorem tailWordsMatterToNoOtherOperation : Obligations.TailWordsMatterToNoOtherOperation := by
  refine ⟨fun i s m hm hxfer hrdrx hwchk => ?_, fun s m => ?_⟩
  · have hread : ∀ a ∈ rxReads i, a < 6 := by
      cases i with
      | rdrx j => simpa [rxReads] using hrdrx j rfl
      | wchk k =>
        have hk := hwchk k rfl
        simp only [rxReads, List.mem_range'_1]
        omega
      | _ => simp [rxReads]
    refine (exec_with_inputs_rx (fun a ha => hm a (hread a ha)) s.inputs).trans (mapNext_congr fun t h => ?_)
    rw [← exec_keeps_inputs h]
    cases i with
    | xfer => exact absurd rfl hxfer
    | _ => rfl
  · refine (exec_with_inputs_rx (i := .xfer) (m := m) (by simp [rxReads]) s.inputs).trans
      ((mapNext_congr fun t h => ?_).trans (mapNext_id _))
    simp only [State.exchanged, ← exec_keeps_inputs h, id]

end Sys2Proof.Machine

/-! The step (10_state.md R27): what it does with the oldest input, presented programs, and what every step keeps. -/

namespace Sys2Proof.Machine

variable {s t : State} {i : Instr}

theorem step_of_no_input (hin : s.inputs = []) : step s = .next s :=
  step_next.2 (.inl ⟨hin, rfl⟩)

theorem step_of_reset {xs : List HostInput} (hin : s.inputs = .reset :: xs) :
    step s = .next ({ s with inputs := xs } : State).hostReset :=
  step_next.2 (.inr (.inl ⟨xs, hin, rfl⟩))

theorem step_of_request {w : ReqWord} {xs : List HostInput} (hin : s.inputs = .request w :: xs)
    (hd : decode w = .ok i) : step s = exec i { s with inputs := xs } := by
  simp only [step, State.takeInput, hin, hd]

theorem step_of_illegal {w : ReqWord} {xs : List HostInput} {why : Illegal} (hin : s.inputs = .request w :: xs)
    (hd : decode w = .error why) : step s = .refused (.illegalWord why) := by
  simp only [step, State.takeInput, hin, hd]

/-- Settles O5: the step by its oldest input, one lemma per kind. -/
theorem stepPerformsTheOldestInput : Obligations.StepPerformsTheOldestInput :=
  ⟨fun _ => step_of_no_input, fun _ _ _ _ => step_of_request, fun _ _ _ _ => step_of_illegal,
    fun _ _ => step_of_reset⟩

/-- Settles O6, by induction on the operations: the first step performs the first one (`step_of_request`), which does
the same whatever inputs wait (`exec_with_inputs`). -/
theorem presentedWordsRunInOrder : Obligations.PresentedWordsRunInOrder := by
  intro ops xs s hwf
  induction ops generalizing s with
  | nil => rfl
  | cons i is ih =>
    obtain ⟨hi, his⟩ := List.forall_mem_cons.1 hwf
    have hstep : step { s with inputs := (i :: is).map (fun i => .request (encode i)) ++ xs } = _ :=
      (step_of_request rfl (decode_encode hi)).trans (exec_with_inputs i s _)
    rw [runOps, exec_with_inputs]
    cases he : exec i s with
    | next u =>
      rw [he] at hstep
      exact (core_run_next hstep _).trans (ih u his)
    | fault r =>
      rw [he] at hstep
      exact core_run_fault hstep _
    | refused r =>
      rw [he] at hstep
      exact core_run_refused hstep _

/-! ### What every step keeps -/

/-- Settles O50: no operation writes the parameters (`exec_keeps_params`), and neither does a reset by the host. -/
theorem noStepChangesTheParameters : Obligations.NoStepChangesTheParameters := by
  intro s t hs
  obtain ⟨-, rfl⟩ | ⟨xs, -, rfl⟩ | ⟨w, xs, i, -, -, he⟩ := step_next.1 hs
  · rfl
  · rfl
  · exact exec_keeps_params (s := { s with inputs := xs }) he

theorem canonical_hostReset (s : State) : BuffersCanonical s.hostReset :=
  ⟨Memory.wf_fill .tx Vector.length_toList.le, Memory.wf_fill .rx Vector.length_toList.le⟩

/-- `FRAME` and `XFER` fill their buffer with as many bytes as it has addresses, and no other operation writes a
buffer. -/
theorem exec_keeps_canonical (hs : BuffersCanonical s) (h : exec i s = .next t) : BuffersCanonical t := by
  obtain ⟨htx, hrx⟩ := hs
  constructor
  · by_cases hi : ∃ c, i = .frame c
    · obtain ⟨c, rfl⟩ := hi
      cases h
      exact Memory.wf_fill .tx (le_refl 2)
    · rwa [exec_keeps_tx h (not_exists.1 hi)]
  · by_cases hi : i = .xfer
    · subst hi
      obtain ⟨-, -, a, -, rfl⟩ := execXfer_next.1 h
      cases a <;> exact Memory.wf_fill .rx Vector.length_toList.le
    · rwa [exec_keeps_rx h hi]

/-- Settles O48: an operation keeps the form (`exec_keeps_canonical`), and a reset by the host makes it
(`canonical_hostReset`). -/
theorem everyStepKeepsBuffersCanonical : Obligations.EveryStepKeepsBuffersCanonical := by
  refine ⟨⟨by decide, by decide⟩, fun s t hcanon hs => ?_⟩
  obtain ⟨-, rfl⟩ | ⟨xs, -, rfl⟩ | ⟨w, xs, i, -, -, he⟩ := step_next.1 hs
  · exact hcanon
  · exact canonical_hostReset _
  · exact exec_keeps_canonical (s := { s with inputs := xs }) hcanon he

/-! ### Launch states (70_reset_and_hazards.md R107 to R109) -/

theorem launch_reset : Launch State.reset := ⟨rfl, rfl, rfl, rfl, rfl, rfl, rfl⟩

theorem launch_hostReset (s : State) : Launch s.hostReset := ⟨rfl, rfl, rfl, rfl, rfl, rfl, rfl⟩

/-- With nothing decoded, no response and no error there is nothing to relate. -/
theorem Launch.inv (h : Launch s) : Inv s :=
  inv_of_not_decoded h.dv (by simp [h.ss]) (by simp [h.err]) (by simp [h.rxv])

/-- Settles O47: every flag that a relation speaks of is 0 (`Launch.inv`). -/
theorem launchStatesMeetTheStateRelations : Obligations.LaunchStatesMeetTheStateRelations :=
  ⟨launch_reset, fun _ => Launch.inv⟩

theorem Launch.st_eq_zero (h : Launch s) : s.st = 0 := by
  simp [State.st, h.ss, h.txv, h.rxv, h.dv, h.wok, h.err, ErrorCode.code, SessionState.code]

/-- Settles O49: `ST` and `CRC` are known and are all that can be read; every other read, and whatever needs a valid
flag, is out of its precondition. -/
theorem launchStatesReadNothingUnspecified : Obligations.LaunchStatesReadNothingUnspecified := by
  refine ⟨fun s h => ⟨?_, ?_, fun k => ⟨_, exec_rdtx_of_no_frame h.txv k⟩, exec_xfer_refused (.inl h.ss),
    fun j => ⟨_, require_of_not h.rxv _ _⟩, fun k => ⟨_, require_of_not h.rxv _ _⟩,
    ⟨_, exec_parse_of_no_response h.rxv⟩, fun k => ⟨_, require_of_not h.dv _ _⟩, ⟨_, require_of_not h.dv _ _⟩,
    ⟨_, exec_idcmp_of_not_decoded h.dv⟩, fun b => ⟨_, rfl⟩, ⟨_, rfl⟩, fun c => ⟨_, rfl⟩, ⟨_, rfl⟩,
    exec_next_of_precondition rfl trivial⟩, fun s xs hin => ?_⟩
  · have hdata : zextHalf s.st = 0 := by rw [h.st_eq_zero]; rfl
    exact congrArg (fun d => Host.Outcome.next (s.answer true d)) hdata
  · have hdata : zextByte s.crc = 0xFF := by rw [h.crc]; rfl
    exact congrArg (fun d => Host.Outcome.next (s.answer true d)) hdata
  · exact ⟨_, step_of_reset hin, launch_hostReset _, rfl, rfl⟩

end Sys2Proof.Machine
